-- ==== Sys2Proof/Word.lean ====
section
/-! DEFINITION. The word types of the tile bit-plane decoder (spec/00_scope.md R5, R7). -/

namespace Sys2Proof

/-- A byte: 8 bits, bit 7 most significant (R7). -/
abbrev Byte := BitVec 8

/-- A register of `ADDR_W = 32` bits: an offset, a length or a count (R5). -/
abbrev Word := BitVec 32

/-- A colour index: 2 bits, a value 0 to 3 (R63). -/
abbrev ColourIndex := BitVec 2

/-- A decoded tile, indexed `[y][x]`: row `y` from the top, column `x` from the left (R63). -/
abbrev Tile := Vector (Vector ColourIndex 8) 8

end Sys2Proof
end

