-- ==== Sys2Proof/Syntax.lean ====
section
/-! DEFINITION. The six commands of the unit, one constructor per row of spec/opcode_table.json (spec/30_encoding.md R68).
A command has no operand field (R67): its operands are fixed registers. -/

namespace Sys2Proof

/-- A command of the unit (R8: "the unit's analogue of an instruction"). -/
inductive Instr where
  /-- `PARSE`, code 0x01 (R80). -/
  | parse
  /-- `DECODE_ALL`, code 0x02 (R104). -/
  | decodeAll
  /-- `DECODE_TILE`, code 0x03 (R101). -/
  | decodeTile
  /-- `COMPOSE`, code 0x04 (R123). -/
  | compose
  /-- `MAPCOLOR`, code 0x05 (R121). -/
  | mapColor
  /-- `RUN`, code 0x06 (R140). -/
  | run
  deriving DecidableEq, Repr

end Sys2Proof
end

