-- ==== Sys2Proof/Decode.lean ====
section
/-! DEFINITION. The command word `CMD8` (spec/30_encoding.md R67 to R69): its decoder and, after it, its encoder. -/

namespace Sys2Proof

/-- What the decoder answers for a command byte. -/
inductive DecodeResult where
  /-- The byte selects this command. -/
  | instr (i : Instr)
  /-- The byte is a reserved command code (R69 (a)). -/
  | reserved (code : Byte)
  deriving DecidableEq, Repr

/-- A row of the operation map (R68): the byte selects `instr` when it equals `pattern` on the bits of `mask`. -/
structure OpcodeRow where
  mask : Byte
  pattern : Byte
  instr : Instr
  deriving DecidableEq, Repr

/-- The operation map, complete (R68); the mask is 0xFF for every row. -/
def opcodeTable : List OpcodeRow :=
  [ ⟨0xFF#8, 0x01#8, .parse⟩,
    ⟨0xFF#8, 0x02#8, .decodeAll⟩,
    ⟨0xFF#8, 0x03#8, .decodeTile⟩,
    ⟨0xFF#8, 0x04#8, .compose⟩,
    ⟨0xFF#8, 0x05#8, .mapColor⟩,
    ⟨0xFF#8, 0x06#8, .run⟩ ]

/-- The first row of `rows` that the byte matches. -/
def matchRow (code : Byte) : List OpcodeRow → DecodeResult
  | [] => .reserved code
  | row :: rows => if code &&& row.mask = row.pattern then .instr row.instr else matchRow code rows

/-- The command a byte written to the `CMD` port selects; every other byte is reserved, by name (R68, R69). -/
def decode (code : Byte) : DecodeResult :=
  matchRow code opcodeTable

/-- The byte that selects a command (R68, R71). -/
def encode : Instr → Byte
  | .parse => 0x01#8
  | .decodeAll => 0x02#8
  | .decodeTile => 0x03#8
  | .compose => 0x04#8
  | .mapColor => 0x05#8
  | .run => 0x06#8

/-- The command byte that `nbits` bits numbered as spec/opcode_table.json numbers them stand for: bits 7 to 0 are the
command word, and bits above `nbits` are 0 (R67: a command is one 8-bit word). -/
def tableByte (nbits w : Nat) : Byte :=
  BitVec.ofNat 8 (w % 2 ^ nbits)

/-- The command the decoder reads from a row's bits; `none` where it refuses. -/
def decodeTableWord (nbits w : Nat) : Option Instr :=
  match decode (tableByte nbits w) with
  | .instr i => some i
  | .reserved _ => none

end Sys2Proof
end

