-- ==== Sys2Proof/Config.lean ====
section
/-! DEFINITION. The parameters of the unit that the spec fixes (spec/00_scope.md R5).
`SRC_CAP`, which the spec leaves open as a model argument, is the field `srcCap` of the state (log entry 3). -/

namespace Sys2Proof.Config

/-- `HDR_LEN`: header length in bytes. -/
abbrev hdrLen : Nat := 16

/-- `PRG_UNIT`: bytes per program-data unit. -/
abbrev prgUnit : Nat := 16384

/-- `CHR_UNIT`: bytes per graphics-data unit. -/
abbrev chrUnit : Nat := 8192

/-- `TILE_BYTES`: bytes per tile record. -/
abbrev tileBytes : Nat := 16

/-- `TILE_DIM`: tile width and height in pixels. -/
abbrev tileDim : Nat := 8

/-- `MAGIC`, byte 0. -/
abbrev magic0 : Byte := 0x4E#8

/-- `MAGIC`, byte 1. -/
abbrev magic1 : Byte := 0x45#8

/-- `MAGIC`, byte 2. -/
abbrev magic2 : Byte := 0x53#8

/-- `MAGIC`, byte 3. -/
abbrev magic3 : Byte := 0x1A#8

/-- `BG`: intensity of an output-grid cell that no tile covers (R125). -/
abbrev bg : Byte := 0#8

/-- `ADDR_W`: width of `SRC_LEN`, `CHR_START`, `CHR_END`, `TILE_COUNT`, `GRID_W`, `GRID_H`, `ROWS`. -/
abbrev addrW : Nat := 32

/-- `TPR_W`: width of `TPR`. -/
abbrev tprW : Nat := 16

end Sys2Proof.Config
end

