-- ==== Sys2Proof/Machine/HostAction.lean ====
section
/-! DEFINITION. The lines of a host script (spec/30_encoding.md R71, spec/43_pipeline.md R142, spec/70_reset_and_hazards.md
R170): what the host can do to the unit, and the names of the registers and memory cells it does it to. -/

namespace Sys2Proof.Machine

/-- A register or memory cell of R10, by name. `CMD` is no such name: it stores nothing (R24). -/
inductive Loc where
  /-- `SRC[a]`. -/
  | src (a : Nat)
  /-- `SRC_LEN`. -/
  | srcLen
  /-- `MAGIC0`. -/
  | magic0
  /-- `MAGIC1`. -/
  | magic1
  /-- `MAGIC2`. -/
  | magic2
  /-- `MAGIC3`. -/
  | magic3
  /-- `PRG`. -/
  | prg
  /-- `CHR`. -/
  | chr
  /-- `CHR_START`. -/
  | chrStart
  /-- `CHR_END`. -/
  | chrEnd
  /-- `ERR`. -/
  | err
  /-- `CHUNK[k]`. -/
  | chunk (k : Nat)
  /-- `PIX[y][x]`. -/
  | pix (y x : Nat)
  /-- `TILE[i][y][x]`. -/
  | tile (i y x : Nat)
  /-- `TILE_COUNT`. -/
  | tileCount
  /-- `TPR`. -/
  | tpr
  /-- `CIDX`. -/
  | cidx
  /-- `INTEN`. -/
  | inten
  /-- `GRID[r][c]`. -/
  | grid (r c : Nat)
  /-- `GRID_W`. -/
  | gridW
  /-- `GRID_H`. -/
  | gridH
  /-- `ROWS`. -/
  | rows
  deriving DecidableEq, Repr

/-- One line of a host script, or the reset event. -/
inductive HostAction where
  /-- A write of a command byte to the `CMD` port (R24, R67). -/
  | cmd (code : Byte)
  /-- `WR x, v` (R142). -/
  | wr (x : Loc) (v : Nat)
  /-- `LDSRC b0 b1 ... b(n-1)` (R142). -/
  | ldSrc (bytes : List Byte)
  /-- `LDCHUNK b0 ... b15` (R142). -/
  | ldChunk (bytes : List Byte)
  /-- `RD x` (R142). -/
  | rd (x : Loc)
  /-- A read of the `CMD` port (R24). -/
  | rdCmd
  /-- The reset event (R170). -/
  | reset
  deriving DecidableEq, Repr

/-- What `RD` gives the host. -/
inductive HostValue where
  /-- The cell holds `v`. -/
  | value (v : Nat)
  /-- The cell exists and holds no value: a byte of `SRC` below `SRC_LEN` that nobody wrote (R14; log entry 5). -/
  | noValue
  deriving DecidableEq, Repr

end Sys2Proof.Machine
end

