-- ==== Sys2Proof/Machine/State.lean ====
section
/-! DEFINITION. The architectural state (spec/10_state.md R10), the ways a step can stop, and the state after reset (R27). -/

namespace Sys2Proof.Machine

/-- The source buffer's bytes: cells at strictly rising addresses. An address that is not listed holds no value (R14), so no
listed cell equals what an unlisted address reads as. -/
abbrev Memory := List Host.Cell

/-- The canonical form from address `lo` on: addresses strictly rising, none below `lo`. -/
def Memory.wfFrom : Nat → Memory → Bool
  | _, [] => true
  | lo, cell :: m => decide (lo ≤ cell.1) && Memory.wfFrom (cell.1 + 1) m

/-- The canonical form of a memory: addresses strictly rising. -/
def Memory.wf (m : Memory) : Bool :=
  Memory.wfFrom 0 m

/-- The two exceptions (R150), the document's `DecodeError`. -/
inductive DecodeError where
  /-- The first four bytes are not the magic (R151). -/
  | formatError
  /-- The header, the region or the descriptor reaches past the buffer (R152). -/
  | truncatedInput
  deriving DecidableEq, Repr

/-- The register `ERR` (R17, R72). Three values: code 3 is never written (spec/93_implementation_defined.md U10; log entry 8). -/
inductive ErrCode where
  /-- Code 0. -/
  | none
  /-- Code 1. -/
  | formatError
  /-- Code 2. -/
  | truncatedInput
  deriving DecidableEq, Repr

/-- The state. The fields up to `rows` are R10's, complete; the last three are the model's own. -/
structure State where
  /-- `SRC`, the source buffer. -/
  src : Memory
  /-- `SRC_LEN`, the number of valid bytes of the source buffer (R14). -/
  srcLen : Word
  /-- `MAGIC0` (R15). -/
  magic0 : Byte
  /-- `MAGIC1` (R15). -/
  magic1 : Byte
  /-- `MAGIC2` (R15). -/
  magic2 : Byte
  /-- `MAGIC3` (R15). -/
  magic3 : Byte
  /-- `PRG`, the program-unit count (R15). -/
  prg : Byte
  /-- `CHR`, the graphics-unit count (R15). -/
  chr : Byte
  /-- `CHR_START` (R16). -/
  chrStart : Word
  /-- `CHR_END` (R16). -/
  chrEnd : Word
  /-- `ERR` (R17). -/
  err : ErrCode
  /-- `CHUNK[0..15]` (R19). -/
  chunk : Vector Byte 16
  /-- `PIX[y][x]` (R20). -/
  pix : Tile
  /-- `TILE[i][y][x]` (R22). -/
  tile : List Tile
  /-- `TILE_COUNT` (R22). -/
  tileCount : Word
  /-- `TPR`, tiles per row (R18). -/
  tpr : BitVec 16
  /-- `CIDX` (R21). -/
  cidx : Byte
  /-- `INTEN` (R21). -/
  inten : Byte
  /-- `GRID[r][c]`, a list of rows (R23). -/
  grid : List (List Byte)
  /-- `GRID_W` (R23). -/
  gridW : Word
  /-- `GRID_H` (R23). -/
  gridH : Word
  /-- `ROWS` (R23). -/
  rows : Word
  /-- The model's own: the parameter `SRC_CAP` of R5, which no step changes (log entry 3). -/
  srcCap : Word
  /-- The model's own: the host actions still to run, the next one first (R179; log entry 1). -/
  script : List HostAction
  /-- The model's own: what `RD` has returned to the host, newest first (R142; log entry 4). -/
  reads : List HostValue
  deriving DecidableEq, Repr

/-- The ways the machine stops with a fault: none. The unit has no stuck behaviour (spec/93_implementation_defined.md Part 1),
and its two exceptions are defined next states (R162; log entry 15). -/
inductive Fault where
  deriving DecidableEq, Repr

/-- The refusals: what "neither the document nor this spec gives a meaning" to (R8, R162). Each is safe: the model has no step
where the spec asks for none. -/
inductive Refusal where
  /-- Raised by an arm of `exec` whose instruction has no meaning yet; no arm does. Safe. -/
  | notModelled (mnemonic : String)
  /-- Raised by `step` on a reserved command code, 0x00 or 0x07 to 0xFF (R69). Safe. -/
  | reservedCommand (code : Byte)
  /-- Raised by COMPOSE and RUN when `TPR = 0` (R127). Safe. -/
  | tilesPerRowZero
  /-- Raised by PARSE, DECODE_ALL and RUN when a byte they would read was never written (R14). Safe. -/
  | sourceByteUnwritten
  /-- Raised by `WR` to output state (R11). Safe. -/
  | hostWriteReadOnly (x : Loc)
  /-- Raised by `WR` of a value that does not fit the register's width (R142). Safe. -/
  | hostValueTooWide (x : Loc) (v : Nat)
  /-- Raised by `WR SRC_LEN` and `LDSRC` of a length above `SRC_CAP` (R142). Safe. -/
  | sourceTooLong (n : Nat)
  /-- Raised by `WR` and `RD` of a cell that does not exist (R142). Safe. -/
  | noSuchCell (x : Loc)
  /-- Raised by `LDCHUNK` of other than 16 bytes (R71, R142). Safe. -/
  | chunkLength (n : Nat)
  /-- Raised by a read of the `CMD` port (R24). Safe. -/
  | commandPortRead
  deriving DecidableEq, Repr

/-- The outcome of a step of this machine. -/
abbrev Result := Host.Outcome State Fault Refusal

/-- The state after reset (R27, R170). -/
def State.reset : State where
  src := []
  srcLen := 0#32
  magic0 := 0#8
  magic1 := 0#8
  magic2 := 0#8
  magic3 := 0#8
  prg := 0#8
  chr := 0#8
  chrStart := 0#32
  chrEnd := 0#32
  err := .none
  chunk := Vector.replicate 16 0#8
  pix := Vector.replicate 8 (Vector.replicate 8 0#2)
  tile := []
  tileCount := 0#32
  tpr := 0#16
  cidx := 0#8
  inten := 0#8
  grid := []
  gridW := 0#32
  gridH := 0#32
  rows := 0#32
  srcCap := 0xFFFFFFFF#32
  script := []
  reads := []

end Sys2Proof.Machine
end

