-- ==== Sys2Proof/Machine/Flags.lean ====
section
/-! DEFINITION. The unit's only status, `ERR` (spec/10_state.md R17, R25; spec/30_encoding.md R72). -/

namespace Sys2Proof.Machine

/-- The value of `ERR` that shows an exception (R72, R150). -/
def errOf : DecodeError → ErrCode
  | .formatError => .formatError
  | .truncatedInput => .truncatedInput

/-- The 2-bit code the host reads from `ERR` (R72). -/
def errBits : ErrCode → BitVec 2
  | .none => 0b00#2
  | .formatError => 0b01#2
  | .truncatedInput => 0b10#2

/-- A write of `ERR` (R17). -/
def State.setErr (s : State) (e : ErrCode) : State :=
  { s with err := e }

end Sys2Proof.Machine
end

