-- ==== Sys2Proof/Machine/Ops.lean ====
section
/-! DEFINITION. The named operations over memory and registers, and taking an exception (spec/60_exceptions.md R156).
There is no return from an exception: "There is no return-from-exception operation and nothing to restore" (R157). -/

namespace Sys2Proof.Machine

/-! ## The bytes of the source buffer -/

/-- The byte a memory holds at an address, if it holds one. -/
def memLookup : Memory → Nat → Option Byte
  | [], _ => none
  | cell :: m, a => if cell.1 = a then some cell.2 else memLookup m a

/-- A memory after a write of one byte. -/
def memWrite : Memory → Nat → Byte → Memory
  | [], a, v => [(a, v)]
  | cell :: m, a, v =>
    if a < cell.1 then (a, v) :: cell :: m
    else if a = cell.1 then (a, v) :: m
    else cell :: memWrite m a v

/-- A memory without the cells at addresses from `n` on (R14: "the bytes above it are lost"). -/
def memTruncate : Memory → Nat → Memory
  | [], _ => []
  | cell :: m, n => if cell.1 < n then cell :: memTruncate m n else memTruncate m n

/-- The memory that holds exactly the bytes `bytes`, from address `a` on. -/
def memOfBytes : Nat → List Byte → Memory
  | _, [] => []
  | a, b :: bytes => (a, b) :: memOfBytes (a + 1) bytes

/-- The `n` bytes a memory holds from address `a` on, read in one pass over its rising cells; `none` if one of them is not
there. -/
def memRun : Memory → Nat → Nat → Option (List Byte)
  | _, _, 0 => some []
  | [], _, _ + 1 => none
  | cell :: m, a, n + 1 =>
    if cell.1 < a then memRun m a (n + 1)
    else if cell.1 = a then
      match memRun m (a + 1) n with
      | some bytes => some (cell.2 :: bytes)
      | none => none
    else none

/-- `MemRead(a, 1)`, the byte `SRC[a]`: defined only for `a < SRC_LEN` (R41), and only if the host has written it (R14). -/
def srcRead (s : State) (a : Nat) : Option Byte :=
  if a < s.srcLen.toNat then memLookup s.src a else none

/-- The byte sequence `SRC[a .. a + n)` (R7), each byte as `MemRead` gives it. -/
def srcRun (s : State) (a n : Nat) : Option (List Byte) :=
  if a + n ≤ s.srcLen.toNat then memRun s.src a n else none

/-! ## Writes of registers and memories -/

/-- The header registers `MAGIC0..3`, `PRG`, `CHR` (R15). -/
def State.setHeader (s : State) (m0 m1 m2 m3 prg chr : Byte) : State :=
  { s with magic0 := m0, magic1 := m1, magic2 := m2, magic3 := m3, prg := prg, chr := chr }

/-- The region descriptor `CHR_START`, `CHR_END` (R16). -/
def State.setDescriptor (s : State) (chrStart chrEnd : Word) : State :=
  { s with chrStart := chrStart, chrEnd := chrEnd }

/-- `PIX` (R20). -/
def State.setPix (s : State) (pix : Tile) : State :=
  { s with pix := pix }

/-- The tile store, wholly replaced, and its length `TILE_COUNT` (R22). -/
def State.setTiles (s : State) (tiles : List Tile) : State :=
  { s with tile := tiles, tileCount := BitVec.ofNat 32 tiles.length }

/-- `INTEN` (R21). -/
def State.setInten (s : State) (v : Byte) : State :=
  { s with inten := v }

/-- The output grid, wholly replaced, and its three dimension registers (R23). -/
def State.setGrid (s : State) (grid : List (List Byte)) (gridW gridH rows : Nat) : State :=
  { s with grid := grid, gridW := BitVec.ofNat 32 gridW, gridH := BitVec.ofNat 32 gridH, rows := BitVec.ofNat 32 rows }

/-- The source buffer and its length (R14). -/
def State.setSource (s : State) (src : Memory) (srcLen : Word) : State :=
  { s with src := src, srcLen := srcLen }

/-- `TPR` (R18). -/
def State.setTpr (s : State) (v : BitVec 16) : State :=
  { s with tpr := v }

/-- `CIDX` (R21). -/
def State.setCidx (s : State) (v : Byte) : State :=
  { s with cidx := v }

/-- `CHUNK` (R19). -/
def State.setChunk (s : State) (c : Vector Byte 16) : State :=
  { s with chunk := c }

/-- What the host has read and what it still has to do: the model's own fields. -/
def State.setHost (s : State) (script : List HostAction) (reads : List HostValue) : State :=
  { s with script := script, reads := reads }

/-! ## Taking an exception -/

/-- Where an exception is raised (R156). -/
inductive RaiseSite where
  /-- In PARSE. -/
  | parse
  /-- In RUN, in its PARSE stage. -/
  | run
  /-- In DECODE_ALL. -/
  | decodeAll
  deriving DecidableEq, Repr

/-- The tile store and the grid emptied: `TILE_COUNT, GRID_W, GRID_H, ROWS <- 0` (R104, R141: "empty tile store", "grid with no cell"). -/
def State.emptyOutputs (s : State) : State :=
  (s.setTiles []).setGrid [] 0 0 0

/-- `raise e` in an operation: its whole effect (R156). -/
def raise (site : RaiseSite) (e : DecodeError) (s : State) : State :=
  match site with
  | .parse => ((s.setHeader 0#8 0#8 0#8 0#8 0#8 0#8).setDescriptor 0#32 0#32).setErr (errOf e)
  | .run => (((s.setHeader 0#8 0#8 0#8 0#8 0#8 0#8).setDescriptor 0#32 0#32).setErr (errOf e)).emptyOutputs
  | .decodeAll => (s.setTiles []).setErr (errOf e)

/-! ## Sequencing -/

/-- `do a` and then `do b`: the second operation runs on the state the first one leaves; a refusal of either refuses the whole
(R12, R162). -/
def andThen (r : Result) (next : State → Result) : Result :=
  match r with
  | .next s => next s
  | .fault f => .fault f
  | .refused e => .refused e

end Sys2Proof.Machine
end

