-- ==== Sys2Proof/Machine/ContainerParser.lean ====
section
/-! DEFINITION. The Container Parser: the pure function `parse` and the command PARSE (spec/40_container_parser.md). -/

namespace Sys2Proof.Machine

/-- The parsed header (R8, R15). -/
structure Header where
  magic0 : Byte
  magic1 : Byte
  magic2 : Byte
  magic3 : Byte
  prg : Byte
  chr : Byte
  deriving DecidableEq, Repr

/-- What `parse` answers: a failure kind, or the header and the region's two offsets (R81). -/
inductive ParseResult where
  /-- A failure. -/
  | failed (e : DecodeError)
  /-- Success. -/
  | parsed (h : Header) (chrStart chrEnd : Nat)
  deriving DecidableEq, Repr

/-- `chrStart = 16 + prg*16384` (R65, R81). -/
def chrStartOf (prg : Byte) : Nat :=
  Config.hdrLen + prg.toNat * Config.prgUnit

/-- `chrEnd = chrStart + chr*8192` (R65, R81). -/
def chrEndOf (prg chr : Byte) : Nat :=
  chrStartOf prg + chr.toNat * Config.chrUnit

/-- The magic check: equality of all 32 bits (R81 step 2, R83). -/
def magicMatches (m0 m1 m2 m3 : Byte) : Bool :=
  m0 == Config.magic0 && m1 == Config.magic1 && m2 == Config.magic2 && m3 == Config.magic3

/-- Steps 3 to 5 of `parse`, on a header whose magic matched and a buffer of `len` bytes (R81). -/
def locateRegion (len : Nat) (h : Header) : ParseResult :=
  if len < chrEndOf h.prg h.chr then .failed .truncatedInput
  else .parsed h (chrStartOf h.prg) (chrEndOf h.prg h.chr)

/-- The pure function `parse` on a byte sequence (R81). -/
def parse (bytes : List Byte) : ParseResult :=
  match bytes with
  | m0 :: m1 :: m2 :: m3 :: prg :: chr :: _ =>
    if bytes.length < Config.hdrLen then .failed .truncatedInput
    else if magicMatches m0 m1 m2 m3 = false then .failed .formatError
    else locateRegion bytes.length ⟨m0, m1, m2, m3, prg, chr⟩
  | _ => .failed .truncatedInput

/-- `parse` on `SRC[0..SRC_LEN)`, reading only PARSE's read set (R47, R80): `none` if a byte of it was never written. -/
def parseSource (s : State) : Option ParseResult :=
  if s.srcLen.toNat < Config.hdrLen then some (.failed .truncatedInput)
  else do
    let m0 ← srcRead s 0
    let m1 ← srcRead s 1
    let m2 ← srcRead s 2
    let m3 ← srcRead s 3
    if magicMatches m0 m1 m2 m3 = false then some (.failed .formatError)
    else do
      let prg ← srcRead s 4
      let chr ← srcRead s 5
      some (locateRegion s.srcLen.toNat ⟨m0, m1, m2, m3, prg, chr⟩)

/-- The registers after a successful PARSE (R80, R15, R16). -/
def State.setParsed (s : State) (h : Header) (chrStart chrEnd : Nat) : State :=
  ((s.setHeader h.magic0 h.magic1 h.magic2 h.magic3 h.prg h.chr).setDescriptor
    (BitVec.ofNat 32 chrStart) (BitVec.ofNat 32 chrEnd)).setErr .none

/-- PARSE as a stage of PARSE or of RUN (R80); `site` says where an exception is raised (R156). -/
def parseStage (site : RaiseSite) (s : State) : Result :=
  match parseSource s with
  | none => .refused .sourceByteUnwritten
  | some (.failed e) => .next (raise site e s)
  | some (.parsed h chrStart chrEnd) => .next (s.setParsed h chrStart chrEnd)

/-- PARSE (R80). -/
def execParse (s : State) : Result :=
  parseStage .parse s

end Sys2Proof.Machine
end

