-- ==== Sys2Proof/Machine/SheetCompositor.lean ====
section
/-! DEFINITION. The Sheet Compositor: the pure functions `mapColor` and `compose` and the commands MAPCOLOR and COMPOSE
(spec/42_sheet_compositor.md). -/

namespace Sys2Proof.Machine

/-- The pure function `mapColor` (R120). -/
def mapColor (index : Nat) : Byte :=
  match index with
  | 0 => 0#8
  | 1 => 117#8
  | 2 => 188#8
  | 3 => 255#8
  | _ => 0#8

/-- `rowCount = ceil(n / t)`, by the integer form (R122). -/
def rowCount (n t : Nat) : Nat :=
  (n + t - 1) / t

/-- The sample of local row `y` and column `c` of one row of tiles: the tile in block column `c div 8` gives it, and a block no
tile covers is background (R122, R124 (b), (c)). -/
def bandSample (band : List Tile) (y : Fin 8) (c : Nat) : Byte :=
  match band[c / 8]? with
  | some t => mapColor (t[y.val])[c % 8].toNat
  | none => Config.bg

/-- Row `r` of the grid of `t` tiles per row: local row `r mod 8` of the tiles from index `(r div 8) * t` on (R122). -/
def gridRow (tiles : List Tile) (t r : Nat) : List Byte :=
  (List.range (Config.tileDim * t)).map
    (bandSample (tiles.drop (r / 8 * t)) ⟨r % 8, Nat.mod_lt r (by decide)⟩)

/-- The pure function `compose` (R122), cell by cell: the cell `[r][c]` is in the block of tile `(r div 8)*t + c div 8`, so this
is R122's loop over the tiles read from the grid's side. Total for `t >= 1`. -/
def compose (tiles : List Tile) (t : Nat) : List (List Byte) :=
  (List.range (Config.tileDim * rowCount tiles.length t)).map (gridRow tiles t)

/-- The tiles that exist: those with an index below `TILE_COUNT` (R22; log entry 7). -/
def State.tiles (s : State) : List Tile :=
  s.tile.take s.tileCount.toNat

/-- The grid laid out from the tile store at `TPR` tiles per row, and its dimensions (R123). -/
def State.setComposed (s : State) : State :=
  s.setGrid (compose s.tiles s.tpr.toNat) (Config.tileDim * s.tpr.toNat)
    (Config.tileDim * rowCount s.tiles.length s.tpr.toNat) (rowCount s.tiles.length s.tpr.toNat)

/-- COMPOSE as a command or as a stage of RUN (R123), refused when `TPR = 0` (R127). -/
def composeStage (s : State) : Result :=
  if s.tpr = 0#16 then .refused .tilesPerRowZero
  else .next s.setComposed

/-- COMPOSE (R123). -/
def execCompose (s : State) : Result :=
  composeStage s

/-- MAPCOLOR: `INTEN <- mapColor(CIDX)` (R121). -/
def execMapColor (s : State) : Result :=
  .next (s.setInten (mapColor s.cidx.toNat))

end Sys2Proof.Machine
end

