-- ==== Sys2Proof/Machine/TileDecoder.lean ====
section
/-! DEFINITION. The Tile Decoder: the pure functions `decodeTile` and `decodeAll` and the commands DECODE_TILE and DECODE_ALL
(spec/41_tile_decoder.md). -/

namespace Sys2Proof.Machine

/-- The colour index of column `x` from the plane-1 byte `p1` and the plane-2 byte `p2` of its row: `b1 + 2*b2` with
`b = (p >> (7 - x)) & 1` (R66, R100). -/
def pixelIndex (p1 p2 : Byte) (x : Nat) : ColourIndex :=
  (((p1 >>> (7 - x)) &&& 1#8) + 2#8 * ((p2 >>> (7 - x)) &&& 1#8)).setWidth 2

/-- The pure function `decodeTile` on a 16-byte chunk (R100). -/
def decodeTile (chunk : Vector Byte 16) : Tile :=
  Vector.ofFn fun y : Fin 8 => Vector.ofFn fun x : Fin 8 => pixelIndex chunk[y.val] chunk[8 + y.val] x.val

/-- The pure function `decodeAll` on a region: one tile per 16 bytes, a trailing partial chunk discarded (R103). -/
def decodeAll : List Byte → List Tile
  | b0 :: b1 :: b2 :: b3 :: b4 :: b5 :: b6 :: b7 :: b8 :: b9 :: b10 :: b11 :: b12 :: b13 :: b14 :: b15 :: rest =>
    decodeTile #v[b0, b1, b2, b3, b4, b5, b6, b7, b8, b9, b10, b11, b12, b13, b14, b15] :: decodeAll rest
  | _ => []

/-- The descriptor lies in the buffer: `CHR_START <= CHR_END <= SRC_LEN` (R104). -/
def descriptorInBounds (s : State) : Bool :=
  decide (s.chrStart.toNat ≤ s.chrEnd.toNat) && decide (s.chrEnd.toNat ≤ s.srcLen.toNat)

/-- The number of tiles of the region, `(CHR_END - CHR_START) div 16` (R44, R104). -/
def regionTiles (s : State) : Nat :=
  (s.chrEnd.toNat - s.chrStart.toNat) / Config.tileBytes

/-- DECODE_ALL as a command or as a stage of RUN (R104): it reads exactly `SRC[CHR_START .. CHR_START + 16*n)` (R47). -/
def decodeStage (s : State) : Result :=
  if descriptorInBounds s = false then .next (raise .decodeAll .truncatedInput s)
  else
    match srcRun s s.chrStart.toNat (Config.tileBytes * regionTiles s) with
    | none => .refused .sourceByteUnwritten
    | some region => .next ((s.setTiles (decodeAll region)).setErr .none)

/-- DECODE_ALL (R104). -/
def execDecodeAll (s : State) : Result :=
  decodeStage s

/-- DECODE_TILE: `PIX <- decodeTile(CHUNK)` (R101). -/
def execDecodeTile (s : State) : Result :=
  .next (s.setPix (decodeTile s.chunk))

end Sys2Proof.Machine
end

