-- ==== Sys2Proof/Machine/Pipeline.lean ====
section
/-! DEFINITION. The pipeline, command RUN (spec/43_pipeline.md R140, R141). -/

namespace Sys2Proof.Machine

/-- RUN (R140): refused as a whole when `TPR = 0`; then PARSE; if it failed, stop with every later output emptied (R141, in
`raise`); else DECODE_ALL and COMPOSE. -/
def execRun (s : State) : Result :=
  if s.tpr = 0#16 then .refused .tilesPerRowZero
  else
    andThen (parseStage .run s) fun s1 =>
      if s1.err = .none then andThen (decodeStage s1) composeStage
      else .next s1

end Sys2Proof.Machine
end

