-- ==== Sys2Proof/Machine/Dispatch.lean ====
section
/-! DEFINITION. What each command does: one arm per constructor of `Instr`. -/

namespace Sys2Proof.Machine

def exec (i : Instr) (s : State) : Host.Outcome State Fault Refusal :=
  match i with
  | .parse => Sys2Proof.Machine.execParse s
  | .decodeAll => Sys2Proof.Machine.execDecodeAll s
  | .decodeTile => Sys2Proof.Machine.execDecodeTile s
  | .compose => Sys2Proof.Machine.execCompose s
  | .mapColor => Sys2Proof.Machine.execMapColor s
  | .run => Sys2Proof.Machine.execRun s

end Sys2Proof.Machine
end

