-- ==== Sys2Proof/Machine/Operands.lean ====
section
/-! DEFINITION. The operand forms of the host's reads and writes: every register and memory cell by name
(spec/10_state.md R10, R11; spec/43_pipeline.md R142). The commands themselves have no operand form: their operands are fixed
registers (spec/30_encoding.md R67). -/

namespace Sys2Proof.Machine

/-- The width in bits of a register or cell (R10). -/
def locWidth : Loc → Nat
  | .src _ => 8
  | .srcLen => Config.addrW
  | .magic0 => 8
  | .magic1 => 8
  | .magic2 => 8
  | .magic3 => 8
  | .prg => 8
  | .chr => 8
  | .chrStart => Config.addrW
  | .chrEnd => Config.addrW
  | .err => 2
  | .chunk _ => 8
  | .pix _ _ => 2
  | .tile _ _ _ => 2
  | .tileCount => Config.addrW
  | .tpr => Config.tprW
  | .cidx => 8
  | .inten => 8
  | .grid _ _ => 8
  | .gridW => Config.addrW
  | .gridH => Config.addrW
  | .rows => Config.addrW

/-- Input state, which the host may write; the rest is output state, read-only to the host (R11). -/
def locWritable : Loc → Bool
  | .src _ => true
  | .srcLen => true
  | .magic0 => false
  | .magic1 => false
  | .magic2 => false
  | .magic3 => false
  | .prg => false
  | .chr => false
  | .chrStart => true
  | .chrEnd => true
  | .err => false
  | .chunk _ => true
  | .pix _ _ => false
  | .tile _ _ _ => false
  | .tileCount => false
  | .tpr => true
  | .cidx => true
  | .inten => false
  | .grid _ _ => false
  | .gridW => false
  | .gridH => false
  | .rows => false

/-- The name is one of R10's, whatever the state: the indexes that the spec bounds by a constant are in range (R10). -/
def locNamed : Loc → Bool
  | .chunk k => decide (k < 16)
  | .pix y x => decide (y < 8) && decide (x < 8)
  | .tile _ y x => decide (y < 8) && decide (x < 8)
  | .src _ => true
  | .srcLen => true
  | .magic0 => true
  | .magic1 => true
  | .magic2 => true
  | .magic3 => true
  | .prg => true
  | .chr => true
  | .chrStart => true
  | .chrEnd => true
  | .err => true
  | .tileCount => true
  | .tpr => true
  | .cidx => true
  | .inten => true
  | .grid _ _ => true
  | .gridW => true
  | .gridH => true
  | .rows => true

/-- "`v` must fit the register's width" (R142). -/
def valueFits (x : Loc) (v : Nat) : Bool :=
  decide (v < 2 ^ locWidth x)

/-- A value held, as the host reads it. -/
def held {w : Nat} (v : BitVec w) : Option HostValue :=
  some (.value v.toNat)

/-- The cell `[y][x]` of a tile, if the indexes name one (R48). -/
def tileCell (t : Tile) (y x : Nat) : Option ColourIndex :=
  match t[y]? with
  | some row => row[x]?
  | none => none

/-- The cell `GRID[r][c]`, if the indexes name one (R23, R49). -/
def gridCell (g : List (List Byte)) (r c : Nat) : Option Byte :=
  match g[r]? with
  | some row => row[c]?
  | none => none

/-- What `RD x` gives; `none` if `x` names no existing cell (R142, R22, R23, R41). -/
def readLoc (s : State) : Loc → Option HostValue
  | .src a =>
    if a < s.srcLen.toNat then
      match memLookup s.src a with
      | some b => held b
      | none => some .noValue
    else none
  | .srcLen => held s.srcLen
  | .magic0 => held s.magic0
  | .magic1 => held s.magic1
  | .magic2 => held s.magic2
  | .magic3 => held s.magic3
  | .prg => held s.prg
  | .chr => held s.chr
  | .chrStart => held s.chrStart
  | .chrEnd => held s.chrEnd
  | .err => held (errBits s.err)
  | .chunk k =>
    match s.chunk[k]? with
    | some b => held b
    | none => none
  | .pix y x =>
    match tileCell s.pix y x with
    | some v => held v
    | none => none
  | .tile i y x =>
    if i < s.tileCount.toNat then
      match s.tile[i]? with
      | some t =>
        match tileCell t y x with
        | some v => held v
        | none => none
      | none => none
    else none
  | .tileCount => held s.tileCount
  | .tpr => held s.tpr
  | .cidx => held s.cidx
  | .inten => held s.inten
  | .grid r c =>
    if r < s.gridH.toNat ∧ c < s.gridW.toNat then
      match gridCell s.grid r c with
      | some v => held v
      | none => none
    else none
  | .gridW => held s.gridW
  | .gridH => held s.gridH
  | .rows => held s.rows

/-- `WR SRC_LEN, n`: lowering it loses the bytes above, raising it adds bytes that hold no value (R14; log entry 11). -/
def State.resizeSource (s : State) (n : Nat) : State :=
  s.setSource (memTruncate s.src (min n s.srcLen.toNat)) (BitVec.ofNat 32 n)

/-- The input register or cell `x` after a write of `v`, a value that fits it (R142). -/
def writeInput (s : State) (v : Nat) : Loc → Result
  | .src a =>
    if a < s.srcLen.toNat then .next (s.setSource (memWrite s.src a (BitVec.ofNat 8 v)) s.srcLen)
    else .refused (.noSuchCell (.src a))
  | .srcLen => if v ≤ s.srcCap.toNat then .next (s.resizeSource v) else .refused (.sourceTooLong v)
  | .tpr => .next (s.setTpr (BitVec.ofNat 16 v))
  | .cidx => .next (s.setCidx (BitVec.ofNat 8 v))
  | .chrStart => .next (s.setDescriptor (BitVec.ofNat 32 v) s.chrEnd)
  | .chrEnd => .next (s.setDescriptor s.chrStart (BitVec.ofNat 32 v))
  | .chunk k =>
    if h : k < 16 then .next (s.setChunk (s.chunk.set k (BitVec.ofNat 8 v) h))
    else .refused (.noSuchCell (.chunk k))
  | .magic0 => .refused (.hostWriteReadOnly .magic0)
  | .magic1 => .refused (.hostWriteReadOnly .magic1)
  | .magic2 => .refused (.hostWriteReadOnly .magic2)
  | .magic3 => .refused (.hostWriteReadOnly .magic3)
  | .prg => .refused (.hostWriteReadOnly .prg)
  | .chr => .refused (.hostWriteReadOnly .chr)
  | .err => .refused (.hostWriteReadOnly .err)
  | .pix y x => .refused (.hostWriteReadOnly (.pix y x))
  | .tile i y x => .refused (.hostWriteReadOnly (.tile i y x))
  | .tileCount => .refused (.hostWriteReadOnly .tileCount)
  | .inten => .refused (.hostWriteReadOnly .inten)
  | .grid r c => .refused (.hostWriteReadOnly (.grid r c))
  | .gridW => .refused (.hostWriteReadOnly .gridW)
  | .gridH => .refused (.hostWriteReadOnly .gridH)
  | .rows => .refused (.hostWriteReadOnly .rows)

/-- `WR x, v`: refused for output state (R11) and for a value that does not fit (R142). -/
def writeLoc (s : State) (x : Loc) (v : Nat) : Result :=
  if locWritable x = false then .refused (.hostWriteReadOnly x)
  else if valueFits x v = false then .refused (.hostValueTooWide x v)
  else writeInput s v x

end Sys2Proof.Machine
end

