-- ==== Sys2Proof/Machine/HostOps.lean ====
section
/-! DEFINITION. The host's pseudo-operations (spec/43_pipeline.md R142) and the reset event (spec/70_reset_and_hazards.md R170),
and the supply of the next host action. They are actions of the host, not commands: they have no encoding (R71). -/

namespace Sys2Proof.Machine

/-- The next line of the host's script and the state with that line taken (R179); `none` when the script has ended. -/
def nextAction (s : State) : Option (HostAction × State) :=
  match s.script with
  | [] => none
  | a :: rest => some (a, s.setHost rest s.reads)

/-- The state with a command byte as the next line of the host's script (R24: a command is a write of its code to `CMD`). -/
def State.offerCommand (s : State) (code : Byte) : State :=
  s.setHost (.cmd code :: s.script) s.reads

/-- `WR x, v` (R142). -/
def hostWr (x : Loc) (v : Nat) (s : State) : Result :=
  writeLoc s x v

/-- `LDSRC b0 ... b(n-1)`: `SRC_LEN <- n` and every byte below it written (R142). -/
def hostLdSrc (bytes : List Byte) (s : State) : Result :=
  if bytes.length ≤ s.srcCap.toNat then .next (s.setSource (memOfBytes 0 bytes) (BitVec.ofNat 32 bytes.length))
  else .refused (.sourceTooLong bytes.length)

/-- `LDCHUNK b0 ... b15` (R142). -/
def hostLdChunk (bytes : List Byte) (s : State) : Result :=
  if h : bytes.toArray.size = 16 then .next (s.setChunk ⟨bytes.toArray, h⟩)
  else .refused (.chunkLength bytes.length)

/-- `RD x`: returns the value and changes nothing of the unit (R142; log entry 4). -/
def hostRd (x : Loc) (s : State) : Result :=
  match readLoc s x with
  | some v => .next (s.setHost s.script (v :: s.reads))
  | none => .refused (.noSuchCell x)

/-- A read of `CMD`, refused (R24). -/
def hostRdCmd (_ : State) : Result :=
  .refused .commandPortRead

/-- The reset event: every register and memory as R27 says (R170). `SRC_CAP` is a parameter and the script and the values read
are the host's, so they stay (log entry 10). -/
def hostReset (s : State) : Result :=
  .next ({ State.reset with srcCap := s.srcCap }.setHost s.script s.reads)

end Sys2Proof.Machine
end

