-- ==== Sys2Proof/Machine/Perform.lean ====
section
/-! DEFINITION. What one line of the host's script does: a command byte is decoded and its command executed (spec/10_state.md
R24, spec/30_encoding.md R69), any other line is a host operation (spec/43_pipeline.md R142). -/

namespace Sys2Proof.Machine

/-- A command byte written to `CMD`: the command it selects is executed; a reserved code is refused (R24, R69). -/
def issue (code : Byte) (s : State) : Host.Outcome State Fault Refusal :=
  match Sys2Proof.decode code with
  | .instr i => exec i s
  | .reserved c => .refused (.reservedCommand c)

/-- One line of the host's script. -/
def perform (a : HostAction) (s : State) : Host.Outcome State Fault Refusal :=
  match a with
  | .cmd code => issue code s
  | .wr x v => hostWr x v s
  | .ldSrc bytes => hostLdSrc bytes s
  | .ldChunk bytes => hostLdChunk bytes s
  | .rd x => hostRd x s
  | .rdCmd => hostRdCmd s
  | .reset => hostReset s

end Sys2Proof.Machine
end

