-- ==== Sys2Proof/Machine/Step.lean ====
section
/-! DEFINITION. One step of the machine: the next line of the host's script, run whole (spec/10_state.md R12, R13, R24;
spec/70_reset_and_hazards.md R176, R179; log entry 1). -/

namespace Sys2Proof.Machine

/-- One step: the next line of the script on the state with that line taken. With no line left the unit waits: it never acts
without a command (R171, R180; log entry 2). -/
def step (s : State) : Host.Outcome State Fault Refusal :=
  match nextAction s with
  | none => .next s
  | some (a, t) => perform a t

/-- The state whose next step issues the command that a table row's bits stand for: the host is about to write it to `CMD`. -/
def State.withFetchWord (s : State) (nbits w : Nat) : State :=
  s.offerCommand (tableByte nbits w)

end Sys2Proof.Machine
end

