-- ==== Sys2Proof/Safety.lean ====
section
/-! DEFINITION. What counts as a safe run (spec/70_reset_and_hazards.md R179), and the invariant of the state. -/

namespace Sys2Proof.Machine

/-- The four intensities the unit ever produces (spec/30_encoding.md R64). -/
def intensities : List Byte :=
  [0#8, 117#8, 188#8, 255#8]

/-- The header registers are those of a successful PARSE, the magic among them, or all 0 (spec/10_state.md R15, R27). -/
def State.HeaderConsistent (s : State) : Prop :=
  (s.magic0 = Config.magic0 ∧ s.magic1 = Config.magic1 ∧ s.magic2 = Config.magic2 ∧ s.magic3 = Config.magic3) ∨
  (s.magic0 = 0#8 ∧ s.magic1 = 0#8 ∧ s.magic2 = 0#8 ∧ s.magic3 = 0#8 ∧ s.prg = 0#8 ∧ s.chr = 0#8)

/-- What holds of the state at reset and after every step. -/
structure State.Inv (s : State) : Prop where
  /-- The source buffer's cells are in canonical form. -/
  srcCanonical : Memory.wf s.src = true
  /-- No byte is held at or above `SRC_LEN` (R14: "Bytes of `SRC` at addresses `>= SRC_LEN` do not exist"). -/
  srcBelowLen : ∀ cell ∈ s.src, cell.1 < s.srcLen.toNat
  /-- `SRC_LEN <= SRC_CAP` (R14). -/
  srcLenWithinCap : s.srcLen.toNat ≤ s.srcCap.toNat
  /-- `TILE_COUNT` is the length of the tile store (R22). -/
  tileCountIsLength : s.tile.length = s.tileCount.toNat
  /-- The tile store never holds more than `SRC_CAP div 16` tiles (R22). -/
  tilesWithinCap : 16 * s.tileCount.toNat ≤ s.srcCap.toNat
  /-- The grid has `GRID_H` rows (R23). -/
  gridHeight : s.grid.length = s.gridH.toNat
  /-- Every row of the grid has `GRID_W` columns (R23). -/
  gridWidth : ∀ row ∈ s.grid, row.length = s.gridW.toNat
  /-- `GRID_H = 8*ROWS` (R23). -/
  gridRows : s.gridH.toNat = 8 * s.rows.toNat
  /-- `GRID_W` is a multiple of 8 (R23). -/
  gridColumns : s.gridW.toNat % 8 = 0
  /-- Every sample of the grid is one of the four intensities (R64). -/
  gridSamples : ∀ row ∈ s.grid, ∀ v ∈ row, v ∈ intensities
  /-- `INTEN` is one of the four intensities (R64). -/
  intenSample : s.inten ∈ intensities
  /-- The header registers are consistent (R15). -/
  header : s.HeaderConsistent

/-- The first `k` lines of the script run without a refusal: the run has not gone wrong (R179: "A run has *gone wrong* only if
some line was refused; an `ERR` code is not"). -/
def State.RunsClean (s : State) (k : Nat) : Prop :=
  ∃ t : State, Sys2Proof.core.run k s = .next t

end Sys2Proof.Machine
end

