-- ==== Sys2Proof/WellFormed.lean ====
section
/-! DEFINITION. Well-formed commands and well-formed host actions. A command has no operand field (spec/30_encoding.md R67), so
every command is well formed; a host action has operands, and the checks that do not need the state are here (R71, R142). -/

namespace Sys2Proof

/-- A well-formed command: none has a field that could be ill formed (R67, R70). -/
def Instr.wellFormed : Instr → Bool
  | .parse => true
  | .decodeAll => true
  | .decodeTile => true
  | .compose => true
  | .mapColor => true
  | .run => true

/-- A well-formed host action: a register or cell name whose fixed indexes are in range, a value that fits it, an input register
for `WR`, sixteen bytes for `LDCHUNK`, and no read of `CMD` (R11, R24, R71, R142). -/
def Machine.HostAction.wellFormed : Machine.HostAction → Bool
  | .cmd _ => true
  | .wr x v => Machine.locNamed x && Machine.locWritable x && Machine.valueFits x v
  | .ldSrc bytes => decide (bytes.length < 2 ^ Config.addrW)
  | .ldChunk bytes => decide (bytes.length = 16)
  | .rd x => Machine.locNamed x
  | .rdCmd => false
  | .reset => true

end Sys2Proof
end

