-- ==== Sys2Proof/Certificates/Slice0/Obligations.lean ====
section
/-! DEFINITION. The statements, each from the numbered rules of spec/. Nothing is proved here. -/

open Sys2Proof Sys2Proof.Machine

/-! ## The words the statements share, written from the spec -/

namespace Sys2Proof.Claims

/-- The colour index of column `x` of a row with plane bytes `p1` and `p2`, as R66 and R100 write it, on naturals. -/
def planeIndex (p1 p2 : Byte) (x : Nat) : Nat :=
  ((p1.toNat >>> (7 - x)) &&& 1) + 2 * ((p2.toNat >>> (7 - x)) &&& 1)

/-- The magic as R81 step 2 writes it. -/
def IsMagic (m0 m1 m2 m3 : Byte) : Prop :=
  m0 = 0x4E#8 ∧ m1 = 0x45#8 ∧ m2 = 0x53#8 ∧ m3 = 0x1A#8

/-- `16 + prg*16384` (R81 step 3). -/
def regionStart (prg : Byte) : Nat :=
  16 + prg.toNat * 16384

/-- `16 + prg*16384 + chr*8192` (R81 step 3). -/
def regionEnd (prg chr : Byte) : Nat :=
  regionStart prg + chr.toNat * 8192

/-- The `n` bytes of `SRC` from `a` on have been written. -/
def Written (s : State) (a n : Nat) : Prop :=
  ∀ k < n, (srcRead s (a + k)).isSome = true

/-- The 2-bit code of `ERR`, as R72 gives it. -/
def errCode : ErrCode → Nat
  | .none => 0
  | .formatError => 1
  | .truncatedInput => 2

/-- The registers with one name each, and the number that each holds (R10, R72). -/
def registerValues (s : State) : List (Loc × Nat) :=
  [ (.srcLen, s.srcLen.toNat), (.magic0, s.magic0.toNat), (.magic1, s.magic1.toNat), (.magic2, s.magic2.toNat),
    (.magic3, s.magic3.toNat), (.prg, s.prg.toNat), (.chr, s.chr.toNat), (.chrStart, s.chrStart.toNat),
    (.chrEnd, s.chrEnd.toNat), (.err, errCode s.err), (.tileCount, s.tileCount.toNat), (.tpr, s.tpr.toNat),
    (.cidx, s.cidx.toNat), (.inten, s.inten.toNat), (.gridW, s.gridW.toNat), (.gridH, s.gridH.toNat), (.rows, s.rows.toNat) ]

/-- Every byte of `SRC` reads in `t` as in `s`. -/
def SameSource (s t : State) : Prop :=
  ∀ a, srcRead t a = srcRead s a

/-- The state after a failing PARSE (R156, first row). -/
def parseFailed (s : State) (e : ErrCode) : State :=
  { s with
    magic0 := 0#8, magic1 := 0#8, magic2 := 0#8, magic3 := 0#8, prg := 0#8, chr := 0#8
    chrStart := 0#32, chrEnd := 0#32, err := e }

/-- The state after a successful PARSE (R80). -/
def parseDone (s : State) (m0 m1 m2 m3 prg chr : Byte) : State :=
  { s with
    magic0 := m0, magic1 := m1, magic2 := m2, magic3 := m3, prg := prg, chr := chr
    chrStart := BitVec.ofNat 32 (regionStart prg), chrEnd := BitVec.ofNat 32 (regionEnd prg chr), err := .none }

/-- The state with the tile store empty and the grid without a cell (R141, R156). -/
def outputsEmptied (s : State) : State :=
  { s with tile := [], tileCount := 0#32, grid := [], gridW := 0#32, gridH := 0#32, rows := 0#32 }

/-- The number of tiles of the region, `(CHR_END - CHR_START) div 16` (R44). -/
def regionCount (s : State) : Nat :=
  (s.chrEnd.toNat - s.chrStart.toNat) / 16

end Sys2Proof.Claims

open Sys2Proof.Claims

/-! ## Encoding -/

/-- R68 and R69 (a): the six command codes, and every other byte reserved. -/
def Obligations.CommandCodesDecode : Prop :=
  decode 0x01#8 = .instr .parse ∧ decode 0x02#8 = .instr .decodeAll ∧ decode 0x03#8 = .instr .decodeTile ∧
  decode 0x04#8 = .instr .compose ∧ decode 0x05#8 = .instr .mapColor ∧ decode 0x06#8 = .instr .run ∧
  ∀ code : Byte, code = 0x00#8 ∨ 7 ≤ code.toNat → decode code = .reserved code

/-- The encoder and the decoder agree in both directions (R68): each command has one code and each accepted code one command. -/
def Obligations.EncodeDecodeAgree : Prop :=
  ∀ i : Instr, i.wellFormed = true → decode (encode i) = .instr i ∧ ∀ code, decode code = .instr i → code = encode i

/-! ## The step -/

/-- A step runs the decoded command: a byte at the head of the script that decodes to `i` makes the step `exec i`, on the state
with that line of the script taken, and nothing else (R12, R24; the script is the model's, log entry 1). -/
def Obligations.StepRunsTheDecodedCommand : Prop :=
  ∀ (s : State) (code : Byte) (rest : List HostAction) (i : Instr), s.script = .cmd code :: rest → decode code = .instr i →
    i.wellFormed = true → step s = exec i { s with script := rest }

/-- A step performs the first line of the script on the state with that line taken (R179; log entry 1). -/
def Obligations.StepPerformsTheNextLine : Prop :=
  ∀ (s : State) (a : HostAction) (rest : List HostAction), s.script = a :: rest →
    step s = perform a { s with script := rest }

/-- A reserved command code is refused by name (R69 (a)). -/
def Obligations.ReservedCodesRefused : Prop :=
  ∀ (s : State) (code : Byte), code = 0x00#8 ∨ 7 ≤ code.toNat →
    perform (.cmd code) s = .refused (.reservedCommand code)

/-- With no line left the unit waits, unchanged (R171, R180; the form is the model's choice, log entry 2). -/
def Obligations.UnitWaitsWithoutAction : Prop :=
  ∀ s : State, s.script = [] → step s = .next s

/-! ## PARSE -/

/-- R80: PARSE's four outcomes, each with the whole next state. -/
def Obligations.ParseOutcomes : Prop :=
  ∀ s : State,
    (s.srcLen.toNat < 16 → exec .parse s = .next (parseFailed s .truncatedInput)) ∧
    ∀ m0 m1 m2 m3 : Byte, 16 ≤ s.srcLen.toNat → srcRead s 0 = some m0 → srcRead s 1 = some m1 → srcRead s 2 = some m2 →
      srcRead s 3 = some m3 →
      (¬ IsMagic m0 m1 m2 m3 → exec .parse s = .next (parseFailed s .formatError)) ∧
      ∀ prg chr : Byte, IsMagic m0 m1 m2 m3 → srcRead s 4 = some prg → srcRead s 5 = some chr →
        (s.srcLen.toNat < regionEnd prg chr → exec .parse s = .next (parseFailed s .truncatedInput)) ∧
        (regionEnd prg chr ≤ s.srcLen.toNat → exec .parse s = .next (parseDone s m0 m1 m2 m3 prg chr))

/-- R151: FormatError for every buffer of at least 16 bytes whose first four bytes are not the magic, whatever the rest. -/
def Obligations.WrongMagicIsFormatError : Prop :=
  ∀ (s : State) (m0 m1 m2 m3 : Byte), 16 ≤ s.srcLen.toNat → srcRead s 0 = some m0 → srcRead s 1 = some m1 →
    srcRead s 2 = some m2 → srcRead s 3 = some m3 → (m0, m1, m2, m3) ≠ (0x4E#8, 0x45#8, 0x53#8, 0x1A#8) →
    ∃ t, exec .parse s = .next t ∧ t.err = .formatError

/-- R81: the pure function `parse`, its steps in order. -/
def Obligations.PureParseSteps : Prop :=
  ∀ bytes : List Byte,
    (bytes.length < 16 → parse bytes = .failed .truncatedInput) ∧
    ∀ hlen : 16 ≤ bytes.length,
      (bytes.take 4 ≠ [0x4E#8, 0x45#8, 0x53#8, 0x1A#8] → parse bytes = .failed .formatError) ∧
      (bytes.take 4 = [0x4E#8, 0x45#8, 0x53#8, 0x1A#8] →
        (bytes.length < regionEnd bytes[4] bytes[5] → parse bytes = .failed .truncatedInput) ∧
        (regionEnd bytes[4] bytes[5] ≤ bytes.length →
          parse bytes = .parsed ⟨bytes[0], bytes[1], bytes[2], bytes[3], bytes[4], bytes[5]⟩
            (regionStart bytes[4]) (regionEnd bytes[4] bytes[5])))

/-- PARSE is `parse` applied to `SRC[0..SRC_LEN)` (R80's closing sentence). -/
def Obligations.ParseRefinesPureParse : Prop :=
  ∀ (s : State) (bytes : List Byte), bytes.length = s.srcLen.toNat → (∀ a < bytes.length, srcRead s a = bytes[a]?) →
    exec .parse s =
      match parse bytes with
      | .failed .formatError => .next (parseFailed s .formatError)
      | .failed .truncatedInput => .next (parseFailed s .truncatedInput)
      | .parsed h _ _ => .next (parseDone s h.magic0 h.magic1 h.magic2 h.magic3 h.prg h.chr)

/-- R65: the two offsets are shifts and sums, and their low bits are as stated. -/
def Obligations.OffsetsAreShiftedCounts : Prop :=
  ∀ prg chr : Byte,
    chrStartOf prg = 16 + prg.toNat <<< 14 ∧ chrEndOf prg chr = chrStartOf prg + chr.toNat <<< 13 ∧
    (∀ k < 4, (chrStartOf prg).testBit k = false ∧ (chrEndOf prg chr).testBit k = false) ∧
    (chrStartOf prg).testBit 4 = true

/-- R82: bounds of the offsets; the strict comparison; a region that passes is in bounds. -/
def Obligations.OffsetBounds : Prop :=
  (∀ prg chr : Byte,
    16 ≤ chrStartOf prg ∧ chrStartOf prg ≤ 4177936 ∧ chrStartOf prg ≤ chrEndOf prg chr ∧ chrEndOf prg chr ≤ 6266896 ∧
    chrEndOf prg chr < 2 ^ 23 ∧ chrEndOf prg chr - chrStartOf prg = chr.toNat * 8192 ∧
    (chrEndOf prg chr - chrStartOf prg) % 16 = 0 ∧ chrStartOf prg % 16 = 0 ∧ chrStartOf prg % 16384 = 16) ∧
  ∀ (bytes : List Byte) (hlen : 16 ≤ bytes.length), bytes.take 4 = [0x4E#8, 0x45#8, 0x53#8, 0x1A#8] →
    (chrEndOf bytes[4] bytes[5] = bytes.length → ∃ h a b, parse bytes = .parsed h a b) ∧
    (bytes.length < chrEndOf bytes[4] bytes[5] → parse bytes = .failed .truncatedInput) ∧
    ∀ h a b, parse bytes = .parsed h a b → a ≤ b ∧ b ≤ bytes.length

/-- R84: PARSE depends on nothing of the source but its length and bytes 0 to 5. -/
def Obligations.ParseReadsSixBytes : Prop :=
  ∀ (s : State) (m : Memory), (∀ a < 6, memLookup m a = memLookup s.src a) →
    exec .parse { s with src := m } =
      match exec .parse s with
      | .next t => .next { t with src := m }
      | .fault f => .fault f
      | .refused r => .refused r

/-- Running PARSE twice on unchanged input gives the same state (R80, corner cases). -/
def Obligations.ParseIsIdempotent : Prop :=
  ∀ s t : State, exec .parse s = .next t → exec .parse t = .next t

/-- The frame of PARSE (R80, operands): all but `MAGIC0..3`, `PRG`, `CHR`, `CHR_START`, `CHR_END`, `ERR` is unchanged, every
byte of `SRC` among it. -/
def Obligations.ParseFrame : Prop :=
  ∀ s t : State, exec .parse s = .next t →
    t = { s with
      magic0 := t.magic0, magic1 := t.magic1, magic2 := t.magic2, magic3 := t.magic3, prg := t.prg, chr := t.chr
      chrStart := t.chrStart, chrEnd := t.chrEnd, err := t.err } ∧
    SameSource s t

/-- PARSE is refused when a byte of its read set was never written, and RUN with it (R14, R47; the read set as a whole is log
entry 6). -/
def Obligations.ParseRefusesUnwrittenByte : Prop :=
  ∀ s : State, 16 ≤ s.srcLen.toNat →
    ((∃ k < 4, srcRead s k = none) →
      exec .parse s = .refused .sourceByteUnwritten ∧ (s.tpr ≠ 0#16 → exec .run s = .refused .sourceByteUnwritten)) ∧
    ∀ m0 m1 m2 m3 : Byte, srcRead s 0 = some m0 → srcRead s 1 = some m1 → srcRead s 2 = some m2 → srcRead s 3 = some m3 →
      IsMagic m0 m1 m2 m3 → (srcRead s 4 = none ∨ srcRead s 5 = none) →
      exec .parse s = .refused .sourceByteUnwritten ∧ (s.tpr ≠ 0#16 → exec .run s = .refused .sourceByteUnwritten)

/-! ## DECODE_TILE -/

/-- R66: a colour index from one bit of each plane. -/
def Obligations.ColourIndexFromPlanes : Prop :=
  ∀ (p1 p2 : Byte) (x : Nat), x < 8 →
    (pixelIndex p1 p2 x).toNat = planeIndex p1 p2 x ∧
    pixelIndex p1 p2 x = BitVec.ofBool (p2.getLsbD (7 - x)) ++ BitVec.ofBool (p1.getLsbD (7 - x))

/-- R100: `decodeTile` cell by cell, and that it is a bijection. -/
def Obligations.DecodeTileIsBijective : Prop :=
  (∀ (chunk : Vector Byte 16) (y x : Nat) (hy : y < 8) (hx : x < 8),
    (decodeTile chunk)[y][x].toNat = planeIndex chunk[y] chunk[8 + y] x) ∧
  Function.Bijective decodeTile

/-- R102: the equivalent statements of R100, and the three mirrors. -/
def Obligations.DecodeTileMirrors : Prop :=
  ∀ (b d : Vector Byte 16) (y x : Nat) (hy : y < 8) (hx : x < 8),
    (decodeTile b)[y][x] = BitVec.ofBool (b[8 + y].getLsbD (7 - x)) ++ BitVec.ofBool (b[y].getLsbD (7 - x)) ∧
    ((decodeTile b)[y][x] = 0#2 ↔ b[y].getLsbD (7 - x) = false ∧ b[8 + y].getLsbD (7 - x) = false) ∧
    ((decodeTile b)[y][x] = 1#2 ↔ b[y].getLsbD (7 - x) = true ∧ b[8 + y].getLsbD (7 - x) = false) ∧
    ((decodeTile b)[y][x] = 2#2 ↔ b[y].getLsbD (7 - x) = false ∧ b[8 + y].getLsbD (7 - x) = true) ∧
    ((decodeTile b)[y][x] = 3#2 ↔ b[y].getLsbD (7 - x) = true ∧ b[8 + y].getLsbD (7 - x) = true) ∧
    (b[y] = d[y] → b[8 + y] = d[8 + y] → (decodeTile b)[y] = (decodeTile d)[y]) ∧
    (b[y].getLsbD (7 - x) = d[y].getLsbD (7 - x) → b[8 + y].getLsbD (7 - x) = d[8 + y].getLsbD (7 - x) →
      (decodeTile b)[y][x] = (decodeTile d)[y][x]) ∧
    ((∀ k (hk : k < 8), d[k] = b[8 + k] ∧ d[8 + k] = b[k]) →
      ((decodeTile b)[y][x] = 0#2 → (decodeTile d)[y][x] = 0#2) ∧ ((decodeTile b)[y][x] = 1#2 → (decodeTile d)[y][x] = 2#2) ∧
      ((decodeTile b)[y][x] = 2#2 → (decodeTile d)[y][x] = 1#2) ∧ ((decodeTile b)[y][x] = 3#2 → (decodeTile d)[y][x] = 3#2)) ∧
    ((∀ k (hk : k < 16), ∀ j < 8, d[k].getLsbD j = b[k].getLsbD (7 - j)) →
      (decodeTile d)[y][x] = (decodeTile b)[y][7 - x]) ∧
    ((∀ k (hk : k < 8), d[k] = b[7 - k] ∧ d[8 + k] = b[15 - k]) → (decodeTile d)[y][x] = (decodeTile b)[7 - y][x])

/-- R101: DECODE_TILE writes the 64 cells of `PIX` from `CHUNK` and nothing else. -/
def Obligations.DecodeTileWritesPix : Prop :=
  ∀ s : State, ∃ pix : Tile, exec .decodeTile s = .next { s with pix := pix } ∧
    ∀ (y x : Nat) (hy : y < 8) (hx : x < 8),
      pix[y][x].toNat = ((s.chunk[y].toNat >>> (7 - x)) &&& 1) + 2 * ((s.chunk[8 + y].toNat >>> (7 - x)) &&& 1)

/-! ## DECODE_ALL -/

/-- R103: the pure function `decodeAll`. -/
def Obligations.PureDecodeAll : Prop :=
  ∀ region : List Byte,
    (decodeAll region).length = region.length / 16 ∧
    (∀ (i : Nat) (chunk : Vector Byte 16), i < region.length / 16 →
      (∀ k (hk : k < 16), region[16 * i + k]? = some chunk[k]) → (decodeAll region)[i]? = some (decodeTile chunk)) ∧
    (∀ other : List Byte, other.length = region.length →
      other.take (16 * (region.length / 16)) = region.take (16 * (region.length / 16)) →
      decodeAll other = decodeAll region) ∧
    (region.length < 16 → decodeAll region = [])

/-- R104: DECODE_ALL, its failure and its success, each with the whole next state and every cell of every tile. -/
def Obligations.DecodeAllOutcomes : Prop :=
  ∀ s : State, Memory.wf s.src = true →
    (¬ (s.chrStart.toNat ≤ s.chrEnd.toNat ∧ s.chrEnd.toNat ≤ s.srcLen.toNat) →
      exec .decodeAll s = .next { s with err := .truncatedInput, tile := [], tileCount := 0#32 }) ∧
    (s.chrStart.toNat ≤ s.chrEnd.toNat → s.chrEnd.toNat ≤ s.srcLen.toNat →
      Written s s.chrStart.toNat (16 * regionCount s) →
      ∃ tiles : List Tile,
        exec .decodeAll s =
          .next { s with err := .none, tile := tiles, tileCount := BitVec.ofNat 32 (regionCount s) } ∧
        tiles.length = regionCount s ∧ regionCount s < 2 ^ 32 ∧
        ∀ (i y x : Nat) (hi : i < tiles.length) (hy : y < 8) (hx : x < 8) (p1 p2 : Byte),
          srcRead s (s.chrStart.toNat + 16 * i + y) = some p1 → srcRead s (s.chrStart.toNat + 16 * i + 8 + y) = some p2 →
          tiles[i][y][x].toNat = planeIndex p1 p2 x)

/-- DECODE_ALL is refused when a byte of its read set was never written (R14, R47); RUN is then refused as a whole, and keeps
nothing of its PARSE stage (R12; log entry 6). -/
def Obligations.DecodeAllRefusesUnwrittenByte : Prop :=
  (∀ s : State, Memory.wf s.src = true → s.chrStart.toNat ≤ s.chrEnd.toNat → s.chrEnd.toNat ≤ s.srcLen.toNat →
    ¬ Written s s.chrStart.toNat (16 * regionCount s) → exec .decodeAll s = .refused .sourceByteUnwritten) ∧
  ∀ s t : State, Memory.wf s.src = true → s.tpr ≠ 0#16 → exec .parse s = .next t → t.err = .none →
    ¬ Written t t.chrStart.toNat (16 * regionCount t) → exec .run s = .refused .sourceByteUnwritten

/-- DECODE_ALL depends on no byte of the source outside `SRC[CHR_START .. CHR_START + 16*n)` (R47, R105). -/
def Obligations.DecodeAllReadsOnlyTheRegion : Prop :=
  ∀ (s : State) (m : Memory), Memory.wf s.src = true → Memory.wf m = true →
    (∀ k < 16 * regionCount s, memLookup m (s.chrStart.toNat + k) = memLookup s.src (s.chrStart.toNat + k)) →
    exec .decodeAll { s with src := m } =
      match exec .decodeAll s with
      | .next t => .next { t with src := m }
      | .fault f => .fault f
      | .refused r => .refused r

/-- R107: what a PARSE leaves for a DECODE_ALL that follows it at once. -/
def Obligations.DecodeAllAfterParse : Prop :=
  ∀ s t : State, exec .parse s = .next t →
    (t.err = .none →
      16 ≤ t.chrStart.toNat ∧ t.chrStart.toNat ≤ t.chrEnd.toNat ∧ t.chrEnd.toNat ≤ t.srcLen.toNat ∧
      t.chrEnd.toNat - t.chrStart.toNat = t.chr.toNat * 8192 ∧ (t.chrEnd.toNat - t.chrStart.toNat) % 16 = 0 ∧
      ∀ u, exec .decodeAll t = .next u →
        u.err = .none ∧ u.tileCount.toNat = t.chr.toNat * 512 ∧ u.tileCount.toNat ≤ 130560) ∧
    (t.err ≠ .none →
      t.chrStart = 0#32 ∧ t.chrEnd = 0#32 ∧
      ∃ u, exec .decodeAll t = .next u ∧ u.err = .none ∧ u.tileCount = 0#32 ∧ u.tile = [])

/-- The frame of DECODE_ALL (R104, operands): all but `TILE`, `TILE_COUNT`, `ERR` is unchanged, every byte of `SRC` among it. -/
def Obligations.DecodeAllFrame : Prop :=
  ∀ s t : State, exec .decodeAll s = .next t →
    t = { s with tile := t.tile, tileCount := t.tileCount, err := t.err } ∧ SameSource s t

/-! ## MAPCOLOR -/

/-- R120: the colour map, injective and strictly increasing on 0 to 3, and 0 elsewhere. -/
def Obligations.ColourMapTable : Prop :=
  mapColor 0 = 0#8 ∧ mapColor 1 = 117#8 ∧ mapColor 2 = 188#8 ∧ mapColor 3 = 255#8 ∧
  (∀ index, 4 ≤ index → mapColor index = 0#8) ∧
  (∀ i j, i < j → j < 4 → (mapColor i).toNat < (mapColor j).toNat)

/-- R121: MAPCOLOR writes `INTEN` from all 8 bits of `CIDX`, and nothing else. -/
def Obligations.MapColorWritesInten : Prop :=
  ∀ s : State, exec .mapColor s = .next { s with
    inten := if s.cidx = 0#8 then 0#8 else if s.cidx = 1#8 then 117#8 else if s.cidx = 2#8 then 188#8
      else if s.cidx = 3#8 then 255#8 else 0#8 }

/-! ## COMPOSE -/

/-- R122: the pure function `compose`: its dimensions, every tile pixel in its place, background elsewhere. -/
def Obligations.PureCompose : Prop :=
  ∀ (tiles : List Tile) (t : Nat), 1 ≤ t →
    tiles.length ≤ rowCount tiles.length t * t ∧ (∀ q, tiles.length ≤ q * t → rowCount tiles.length t ≤ q) ∧
    (compose tiles t).length = 8 * rowCount tiles.length t ∧ (∀ row ∈ compose tiles t, row.length = 8 * t) ∧
    (∀ (i y x : Nat) (hi : i < tiles.length) (hy : y < 8) (hx : x < 8),
      gridCell (compose tiles t) (y + i / t * 8) (x + i % t * 8) = some (mapColor tiles[i][y][x].toNat)) ∧
    (∀ r c, r < 8 * rowCount tiles.length t → c < 8 * t →
      (∀ i y x, i < tiles.length → y < 8 → x < 8 → ¬ (r = y + i / t * 8 ∧ c = x + i % t * 8)) →
      gridCell (compose tiles t) r c = some 0#8)

/-- R124: in bounds, disjoint, and which cells no tile covers. -/
def Obligations.TilePlacementGeometry : Prop :=
  ∀ n t : Nat, 1 ≤ t →
    (∀ i y x, i < n → y < 8 → x < 8 → x + i % t * 8 < 8 * t ∧ y + i / t * 8 < 8 * rowCount n t) ∧
    (∀ i j y x v w, i < n → j < n → y < 8 → x < 8 → v < 8 → w < 8 → y + i / t * 8 = v + j / t * 8 →
      x + i % t * 8 = w + j % t * 8 → i = j ∧ y = v ∧ x = w) ∧
    (∀ r c, r < 8 * rowCount n t → c < 8 * t →
      ((¬ ∃ i y x, i < n ∧ y < 8 ∧ x < 8 ∧ r = y + i / t * 8 ∧ c = x + i % t * 8) ↔
        n % t ≠ 0 ∧ r / 8 = rowCount n t - 1 ∧ n % t ≤ c / 8))

/-- R123: COMPOSE is refused with `TPR = 0`; with `TPR` at least 1 it replaces the grid and its dimensions, and nothing else. -/
def Obligations.ComposeOutcome : Prop :=
  ∀ s : State, s.Inv →
    (s.tpr = 0#16 → exec .compose s = .refused .tilesPerRowZero) ∧
    (s.tpr ≠ 0#16 → ∃ t : State, exec .compose s = .next t ∧
      t = { s with grid := t.grid, gridW := t.gridW, gridH := t.gridH, rows := t.rows } ∧
      t.rows.toNat = (s.tileCount.toNat + s.tpr.toNat - 1) / s.tpr.toNat ∧
      t.gridW.toNat = 8 * s.tpr.toNat ∧ t.gridH.toNat = 8 * t.rows.toNat ∧
      t.grid.length = t.gridH.toNat ∧ (∀ row ∈ t.grid, row.length = t.gridW.toNat) ∧
      (∀ (i y x : Nat) (tile : Tile) (hy : y < 8) (hx : x < 8), i < s.tileCount.toNat → s.tile[i]? = some tile →
        gridCell t.grid (y + i / s.tpr.toNat * 8) (x + i % s.tpr.toNat * 8) = some (mapColor tile[y][x].toNat)) ∧
      (∀ r c, r < t.gridH.toNat → c < t.gridW.toNat →
        (∀ i y x, i < s.tileCount.toNat → y < 8 → x < 8 →
          ¬ (r = y + i / s.tpr.toNat * 8 ∧ c = x + i % s.tpr.toNat * 8)) →
        gridCell t.grid r c = some 0#8))

/-- R126: with zero tiles the grid has a width and no rows. -/
def Obligations.ComposeNoTiles : Prop :=
  ∀ s : State, s.tpr ≠ 0#16 → s.tileCount = 0#32 →
    exec .compose s =
      .next { s with grid := [], gridW := BitVec.ofNat 32 (8 * s.tpr.toNat), gridH := 0#32, rows := 0#32 }

/-- R127: COMPOSE and RUN with `TPR = 0` are refused, with no step. -/
def Obligations.ZeroTilesPerRowRefused : Prop :=
  ∀ s : State, s.tpr = 0#16 →
    exec .compose s = .refused .tilesPerRowZero ∧ exec .run s = .refused .tilesPerRowZero

/-- The frames of DECODE_TILE, MAPCOLOR and COMPOSE (R101, R121, R123, operands), which store nothing to `SRC`. -/
def Obligations.DirectOperationFrames : Prop :=
  ∀ s t : State,
    (exec .decodeTile s = .next t → t = { s with pix := t.pix } ∧ SameSource s t) ∧
    (exec .mapColor s = .next t → t = { s with inten := t.inten } ∧ SameSource s t) ∧
    (exec .compose s = .next t →
      t = { s with grid := t.grid, gridW := t.gridW, gridH := t.gridH, rows := t.rows } ∧ SameSource s t)

/-! ## RUN -/

/-- R141: when its PARSE stage fails, RUN stops with every later output emptied. -/
def Obligations.RunFailureEmptiesOutputs : Prop :=
  ∀ s t : State, s.tpr ≠ 0#16 → exec .parse s = .next t → t.err ≠ .none → exec .run s = .next (outputsEmptied t)

/-- R143: RUN against the three commands, on success and on failure. -/
def Obligations.RunIsThePipeline : Prop :=
  ∀ s t : State, s.tpr ≠ 0#16 → exec .parse s = .next t →
    (t.err = .none → ∀ u v, exec .decodeAll t = .next u → exec .compose u = .next v → exec .run s = .next v) ∧
    (t.err ≠ .none → t.chrStart = 0#32 ∧ t.chrEnd = 0#32 ∧
      (∃ u v, exec .decodeAll t = .next u ∧ u.err = .none ∧ u.tileCount = 0#32 ∧ exec .compose u = .next v ∧
        v.err = .none ∧ v.gridH = 0#32 ∧ v.gridW.toNat = 8 * s.tpr.toNat) ∧
      (∃ w, exec .run s = .next w ∧ w.err = t.err ∧ w.gridW = 0#32))

/-- RUN on a valid container (R140): every register it writes, and every tile pixel of the grid from the source's own bytes. -/
def Obligations.RunOnValidContainer : Prop :=
  ∀ (s : State) (prg chr : Byte), Memory.wf s.src = true → s.tpr ≠ 0#16 → 16 ≤ s.srcLen.toNat →
    srcRead s 0 = some 0x4E#8 → srcRead s 1 = some 0x45#8 → srcRead s 2 = some 0x53#8 → srcRead s 3 = some 0x1A#8 →
    srcRead s 4 = some prg → srcRead s 5 = some chr → regionEnd prg chr ≤ s.srcLen.toNat →
    Written s (regionStart prg) (chr.toNat * 8192) →
    ∃ t : State, exec .run s = .next t ∧
      t = { parseDone s 0x4E#8 0x45#8 0x53#8 0x1A#8 prg chr with
        tile := t.tile, tileCount := t.tileCount, grid := t.grid, gridW := t.gridW, gridH := t.gridH, rows := t.rows } ∧
      t.tileCount.toNat = chr.toNat * 512 ∧
      t.rows.toNat = (chr.toNat * 512 + s.tpr.toNat - 1) / s.tpr.toNat ∧
      t.gridW.toNat = 8 * s.tpr.toNat ∧ t.gridH.toNat = 8 * t.rows.toNat ∧
      ∀ i y x : Nat, i < chr.toNat * 512 → y < 8 → x < 8 → ∀ p1 p2 : Byte,
        srcRead s (regionStart prg + 16 * i + y) = some p1 → srcRead s (regionStart prg + 16 * i + 8 + y) = some p2 →
        gridCell t.grid (y + i / s.tpr.toNat * 8) (x + i % s.tpr.toNat * 8) = some (mapColor (planeIndex p1 p2 x))

/-- The frame of RUN (R140, operands): `CHUNK`, `PIX`, `CIDX`, `INTEN`, `TPR`, the source and the model's own fields are
unchanged. -/
def Obligations.RunFrame : Prop :=
  ∀ s t : State, exec .run s = .next t →
    t = { s with
      magic0 := t.magic0, magic1 := t.magic1, magic2 := t.magic2, magic3 := t.magic3, prg := t.prg, chr := t.chr
      chrStart := t.chrStart, chrEnd := t.chrEnd, err := t.err, tile := t.tile, tileCount := t.tileCount
      grid := t.grid, gridW := t.gridW, gridH := t.gridH, rows := t.rows } ∧
    SameSource s t

/-! ## Exceptions and refusals -/

/-- R156: the whole effect of an exception, in each operation that raises one. -/
def Obligations.ExceptionEffects : Prop :=
  ∀ s t : State, t.err ≠ .none →
    (exec .parse s = .next t → t = parseFailed s t.err) ∧
    (exec .run s = .next t → t = outputsEmptied (parseFailed s t.err)) ∧
    (exec .decodeAll s = .next t → t = { s with err := .truncatedInput, tile := [], tileCount := 0#32 })

/-- R155: which exception a PARSE reports, by the fixed order of its checks. -/
def Obligations.ExceptionPriority : Prop :=
  ∀ s t : State, exec .parse s = .next t →
    (s.srcLen.toNat < 16 → t.err = .truncatedInput) ∧
    (16 ≤ s.srcLen.toNat → ∀ m0 m1 m2 m3, srcRead s 0 = some m0 → srcRead s 1 = some m1 → srcRead s 2 = some m2 →
      srcRead s 3 = some m3 →
      (¬ IsMagic m0 m1 m2 m3 → t.err = .formatError) ∧
      (IsMagic m0 m1 m2 m3 → (t.err = .truncatedInput ∨ t.err = .none) ∧
        ∀ prg chr, srcRead s 4 = some prg → srcRead s 5 = some chr →
          (t.err = .truncatedInput ↔ s.srcLen.toNat < regionEnd prg chr)))

/-- R161: DECODE_TILE, MAPCOLOR and COMPOSE never raise: they leave `ERR` as it was. -/
def Obligations.NeverRaisingOperations : Prop :=
  ∀ s t : State, exec .decodeTile s = .next t ∨ exec .mapColor s = .next t ∨ exec .compose s = .next t → t.err = s.err

/-- `ERR` is written by PARSE, DECODE_ALL, RUN and the reset event only (R17). -/
def Obligations.ErrWrittenByThreeOperations : Prop :=
  ∀ (s t : State) (a : HostAction), perform a s = .next t → a ≠ .reset → a ≠ .cmd 0x01#8 → a ≠ .cmd 0x02#8 →
    a ≠ .cmd 0x06#8 → t.err = s.err

/-- A command never faults, and is refused only for `TPR = 0` or for a byte of the source that was never written (R162; R8). -/
def Obligations.CommandRefusals : Prop :=
  ∀ (s : State) (i : Instr), Memory.wf s.src = true →
    (∀ f, exec i s ≠ .fault f) ∧
    ∀ r, exec i s = .refused r →
      (r = .tilesPerRowZero ∧ s.tpr = 0#16 ∧ (i = .compose ∨ i = .run)) ∨
      (r = .sourceByteUnwritten ∧ (∃ a < s.srcLen.toNat, srcRead s a = none) ∧ (i = .parse ∨ i = .decodeAll ∨ i = .run))

/-- Every command completes on a state whose source is wholly written and whose `TPR` is at least 1 (R172). -/
def Obligations.EveryCommandCompletes : Prop :=
  ∀ (s : State) (i : Instr), Memory.wf s.src = true → Written s 0 s.srcLen.toNat → s.tpr ≠ 0#16 →
    ∃ t, exec i s = .next t

/-! ## Reset -/

/-- R27: the state after reset, and what each command then does. -/
def Obligations.ResetState : Prop :=
  State.reset.srcLen = 0#32 ∧ (∀ a, srcRead State.reset a = none) ∧
  State.reset.magic0 = 0#8 ∧ State.reset.magic1 = 0#8 ∧ State.reset.magic2 = 0#8 ∧ State.reset.magic3 = 0#8 ∧
  State.reset.prg = 0#8 ∧ State.reset.chr = 0#8 ∧ State.reset.chrStart = 0#32 ∧ State.reset.chrEnd = 0#32 ∧
  State.reset.err = .none ∧ (∀ k (hk : k < 16), State.reset.chunk[k] = 0#8) ∧
  (∀ y x (hy : y < 8) (hx : x < 8), State.reset.pix[y][x] = 0#2) ∧
  State.reset.tileCount = 0#32 ∧ State.reset.tile = [] ∧ State.reset.tpr = 0#16 ∧ State.reset.cidx = 0#8 ∧
  State.reset.inten = 0#8 ∧ State.reset.gridW = 0#32 ∧ State.reset.gridH = 0#32 ∧ State.reset.rows = 0#32 ∧
  State.reset.grid = [] ∧
  exec .parse State.reset = .next { State.reset with err := .truncatedInput } ∧
  exec .decodeAll State.reset = .next State.reset ∧ exec .decodeTile State.reset = .next State.reset ∧
  exec .mapColor State.reset = .next State.reset ∧
  exec .compose State.reset = .refused .tilesPerRowZero ∧ exec .run State.reset = .refused .tilesPerRowZero

/-- The reset event puts every register and memory of the unit into the state of R27 (R170); `SRC_CAP`, the script and the
values read are not the unit's state and stay (log entry 10). -/
def Obligations.ResetEventClearsTheUnit : Prop :=
  ∀ s : State, perform .reset s = .next { State.reset with srcCap := s.srcCap, script := s.script, reads := s.reads }

/-! ## The host's pseudo-operations -/

/-- `WR` of `TPR`, `CIDX`, `CHR_START`, `CHR_END` and `CHUNK[k]`, each value that fits and each that does not (R142); `CHUNK[k]`
from 16 on, and which refusal comes first, are log entry 14's. -/
def Obligations.HostWritesInputRegisters : Prop :=
  ∀ (s : State) (v : Nat),
    (v < 2 ^ 16 → perform (.wr .tpr v) s = .next { s with tpr := BitVec.ofNat 16 v }) ∧
    (v < 2 ^ 8 → perform (.wr .cidx v) s = .next { s with cidx := BitVec.ofNat 8 v }) ∧
    (v < 2 ^ 32 → perform (.wr .chrStart v) s = .next { s with chrStart := BitVec.ofNat 32 v }) ∧
    (v < 2 ^ 32 → perform (.wr .chrEnd v) s = .next { s with chrEnd := BitVec.ofNat 32 v }) ∧
    (v < 2 ^ 8 → ∀ k (hk : k < 16), ∃ t, perform (.wr (.chunk k) v) s = .next t ∧ t = { s with chunk := t.chunk } ∧
      ∀ j (hj : j < 16), t.chunk[j] = if j = k then BitVec.ofNat 8 v else s.chunk[j]) ∧
    (2 ^ 16 ≤ v → perform (.wr .tpr v) s = .refused (.hostValueTooWide .tpr v)) ∧
    (2 ^ 8 ≤ v → perform (.wr .cidx v) s = .refused (.hostValueTooWide .cidx v)) ∧
    (2 ^ 32 ≤ v → perform (.wr .chrStart v) s = .refused (.hostValueTooWide .chrStart v)) ∧
    (2 ^ 32 ≤ v → perform (.wr .chrEnd v) s = .refused (.hostValueTooWide .chrEnd v)) ∧
    (2 ^ 8 ≤ v → ∀ k, perform (.wr (.chunk k) v) s = .refused (.hostValueTooWide (.chunk k) v)) ∧
    (v < 2 ^ 8 → ∀ k, 16 ≤ k → perform (.wr (.chunk k) v) s = .refused (.noSuchCell (.chunk k)))

/-- `WR SRC[a], v`: the byte reads as written and every other byte as before; refused from `SRC_LEN` on, and for a `v` that is no
byte (R142; which refusal comes first is log entry 14's). -/
def Obligations.HostWritesSourceByte : Prop :=
  ∀ (s : State) (a v : Nat),
    (Memory.wf s.src = true → v < 2 ^ 8 → a < s.srcLen.toNat →
      ∃ t, perform (.wr (.src a) v) s = .next t ∧ t = { s with src := t.src } ∧
        ∀ b, srcRead t b = if b = a then some (BitVec.ofNat 8 v) else srcRead s b) ∧
    (v < 2 ^ 8 → s.srcLen.toNat ≤ a → perform (.wr (.src a) v) s = .refused (.noSuchCell (.src a))) ∧
    (2 ^ 8 ≤ v → perform (.wr (.src a) v) s = .refused (.hostValueTooWide (.src a) v))

/-- `WR SRC_LEN, n` (R14, R142): lowering loses the bytes above, raising adds bytes that hold no value; a length above `SRC_CAP`,
and one that does not fit the register, are refused. -/
def Obligations.HostResizesSource : Prop :=
  ∀ (s : State) (n : Nat),
    (Memory.wf s.src = true → n < 2 ^ 32 → n ≤ s.srcCap.toNat →
      ∃ t, perform (.wr .srcLen n) s = .next t ∧ t = { s with src := t.src, srcLen := t.srcLen } ∧
        t.srcLen.toNat = n ∧ ∀ a, srcRead t a = if a < n then srcRead s a else none) ∧
    (n < 2 ^ 32 → s.srcCap.toNat < n → perform (.wr .srcLen n) s = .refused (.sourceTooLong n)) ∧
    (2 ^ 32 ≤ n → perform (.wr .srcLen n) s = .refused (.hostValueTooWide .srcLen n))

/-- Bytes lost by lowering `SRC_LEN` do not come back when it is raised again (R14). -/
def Obligations.LostBytesStayLost : Prop :=
  ∀ (s t u : State) (n k : Nat), s.Inv → perform (.wr .srcLen n) s = .next t → perform (.wr .srcLen k) t = .next u →
    ∀ a, n ≤ a → srcRead u a = none

/-- `LDSRC` (R142): the length and every byte of the new buffer. -/
def Obligations.HostLoadsSource : Prop :=
  ∀ (s : State) (bytes : List Byte),
    (bytes.length ≤ s.srcCap.toNat → ∃ t, perform (.ldSrc bytes) s = .next t ∧
      t = { s with src := t.src, srcLen := t.srcLen } ∧ t.srcLen.toNat = bytes.length ∧ ∀ k, srcRead t k = bytes[k]?) ∧
    (s.srcCap.toNat < bytes.length → perform (.ldSrc bytes) s = .refused (.sourceTooLong bytes.length))

/-- `LDCHUNK` (R142): sixteen bytes, each in its place; a line of another length is refused (the model's choice, log entry 14). -/
def Obligations.HostLoadsChunk : Prop :=
  ∀ (s : State) (bytes : List Byte),
    (bytes.length = 16 →
      ∃ t, perform (.ldChunk bytes) s = .next t ∧ t = { s with chunk := t.chunk } ∧
        ∀ k (hk : k < 16), some t.chunk[k] = bytes[k]?) ∧
    (bytes.length ≠ 16 → perform (.ldChunk bytes) s = .refused (.chunkLength bytes.length))

/-- `RD` changes nothing of the unit: the value the cell holds goes to the host, and a name of no cell is refused (R142; the
record of values read is the model's, log entry 4). -/
def Obligations.HostReadsChangeNothing : Prop :=
  ∀ (s : State) (x : Loc),
    (∀ v, readLoc s x = some v → perform (.rd x) s = .next { s with reads := v :: s.reads }) ∧
    (readLoc s x = none → perform (.rd x) s = .refused (.noSuchCell x)) ∧
    perform .rdCmd s = .refused .commandPortRead

/-- Which cells `RD` finds, and what it gives for each of them (R142, R10, R22, R23, R41), `ERR` by its code of R72. That a `CHUNK`
or `PIX` index out of range finds none is log entry 14, and that an unwritten byte of `SRC` gives `noValue` is log entry 5: the
model's choices. -/
def Obligations.HostReadsExistingCells : Prop :=
  ∀ s : State,
    (∀ x v, (x, v) ∈ registerValues s → readLoc s x = some (.value v)) ∧
    (∀ k (hk : k < 16), readLoc s (.chunk k) = some (.value s.chunk[k].toNat)) ∧
    (∀ k, 16 ≤ k → readLoc s (.chunk k) = none) ∧
    (∀ y x (hy : y < 8) (hx : x < 8), readLoc s (.pix y x) = some (.value s.pix[y][x].toNat)) ∧
    (∀ y x, 8 ≤ y ∨ 8 ≤ x → readLoc s (.pix y x) = none) ∧
    (∀ a, (readLoc s (.src a)).isSome = true ↔ a < s.srcLen.toNat) ∧
    (∀ a b, srcRead s a = some b → readLoc s (.src a) = some (.value b.toNat)) ∧
    (∀ a, a < s.srcLen.toNat → srcRead s a = none → readLoc s (.src a) = some .noValue) ∧
    (∀ i y x (tile : Tile) (hy : y < 8) (hx : x < 8), i < s.tileCount.toNat → s.tile[i]? = some tile →
      readLoc s (.tile i y x) = some (.value tile[y][x].toNat)) ∧
    (s.Inv →
      (∀ i y x, (readLoc s (.tile i y x)).isSome = true ↔ i < s.tileCount.toNat ∧ y < 8 ∧ x < 8) ∧
      (∀ r k, (readLoc s (.grid r k)).isSome = true ↔ r < s.gridH.toNat ∧ k < s.gridW.toNat) ∧
      (∀ r k v, gridCell s.grid r k = some v → readLoc s (.grid r k) = some (.value v.toNat)))

/-- Output state is read-only to the host: a `WR` to it is refused (R11). -/
def Obligations.OutputStateIsReadOnly : Prop :=
  ∀ (s : State) (v i y x r k : Nat) (l : Loc),
    l ∈ [Loc.magic0, .magic1, .magic2, .magic3, .prg, .chr, .err, .pix y x, .tile i y x, .tileCount, .inten, .grid r k,
      .gridW, .gridH, .rows] →
    perform (.wr l v) s = .refused (.hostWriteReadOnly l)

/-- No host action but a command and the reset event changes output state (R11). -/
def Obligations.HostActionsLeaveOutputs : Prop :=
  ∀ (s t : State) (a : HostAction), perform a s = .next t → (∀ code, a ≠ .cmd code) → a ≠ .reset →
    t = { s with
      src := t.src, srcLen := t.srcLen, chrStart := t.chrStart, chrEnd := t.chrEnd, chunk := t.chunk, tpr := t.tpr
      cidx := t.cidx, reads := t.reads }

/-- No command writes the source, or input state other than the descriptor, and only PARSE and RUN write that (R11, R45, R180). -/
def Obligations.CommandsNeverWriteInputs : Prop :=
  ∀ (s t : State) (i : Instr), exec i s = .next t →
    SameSource s t ∧ t.src = s.src ∧ t.srcLen = s.srcLen ∧ t.tpr = s.tpr ∧ t.chunk = s.chunk ∧ t.cidx = s.cidx ∧
    t.srcCap = s.srcCap ∧ t.script = s.script ∧ t.reads = s.reads ∧
    (i ≠ .parse → i ≠ .run → t.chrStart = s.chrStart ∧ t.chrEnd = s.chrEnd)

/-- The stale descriptor (R173): shrinking the buffer below `CHR_END` makes the next DECODE_ALL raise TruncatedInput. -/
def Obligations.StaleDescriptorRaises : Prop :=
  ∀ (s t : State) (n : Nat), n < s.chrEnd.toNat → perform (.wr .srcLen n) s = .next t →
    exec .decodeAll t = .next { t with err := .truncatedInput, tile := [], tileCount := 0#32 }

/-! ## The invariant -/

/-- The invariant holds at reset (R27). -/
def Obligations.InvariantAtReset : Prop :=
  State.reset.Inv

/-- Every step keeps the invariant, from every state that has it, reached or not. -/
def Obligations.StepKeepsInvariant : Prop :=
  ∀ s t : State, s.Inv → step s = .next t → t.Inv
end

