-- ==== Sys2Proof/Laws/State.lean ====
section
/-! SUPPORT. The state record: one lemma per field per update, each true by definition, so that no later proof unfolds an
update. -/

namespace Sys2Proof.Machine

variable (s : State)

/-! ## `setErr` -/

@[simp] theorem State.setErr_src (e : ErrCode) : (s.setErr e).src = s.src := rfl
@[simp] theorem State.setErr_srcLen (e : ErrCode) : (s.setErr e).srcLen = s.srcLen := rfl
@[simp] theorem State.setErr_magic0 (e : ErrCode) : (s.setErr e).magic0 = s.magic0 := rfl
@[simp] theorem State.setErr_magic1 (e : ErrCode) : (s.setErr e).magic1 = s.magic1 := rfl
@[simp] theorem State.setErr_magic2 (e : ErrCode) : (s.setErr e).magic2 = s.magic2 := rfl
@[simp] theorem State.setErr_magic3 (e : ErrCode) : (s.setErr e).magic3 = s.magic3 := rfl
@[simp] theorem State.setErr_prg (e : ErrCode) : (s.setErr e).prg = s.prg := rfl
@[simp] theorem State.setErr_chr (e : ErrCode) : (s.setErr e).chr = s.chr := rfl
@[simp] theorem State.setErr_chrStart (e : ErrCode) : (s.setErr e).chrStart = s.chrStart := rfl
@[simp] theorem State.setErr_chrEnd (e : ErrCode) : (s.setErr e).chrEnd = s.chrEnd := rfl
@[simp] theorem State.setErr_err (e : ErrCode) : (s.setErr e).err = e := rfl
@[simp] theorem State.setErr_chunk (e : ErrCode) : (s.setErr e).chunk = s.chunk := rfl
@[simp] theorem State.setErr_pix (e : ErrCode) : (s.setErr e).pix = s.pix := rfl
@[simp] theorem State.setErr_tile (e : ErrCode) : (s.setErr e).tile = s.tile := rfl
@[simp] theorem State.setErr_tileCount (e : ErrCode) : (s.setErr e).tileCount = s.tileCount := rfl
@[simp] theorem State.setErr_tpr (e : ErrCode) : (s.setErr e).tpr = s.tpr := rfl
@[simp] theorem State.setErr_cidx (e : ErrCode) : (s.setErr e).cidx = s.cidx := rfl
@[simp] theorem State.setErr_inten (e : ErrCode) : (s.setErr e).inten = s.inten := rfl
@[simp] theorem State.setErr_grid (e : ErrCode) : (s.setErr e).grid = s.grid := rfl
@[simp] theorem State.setErr_gridW (e : ErrCode) : (s.setErr e).gridW = s.gridW := rfl
@[simp] theorem State.setErr_gridH (e : ErrCode) : (s.setErr e).gridH = s.gridH := rfl
@[simp] theorem State.setErr_rows (e : ErrCode) : (s.setErr e).rows = s.rows := rfl
@[simp] theorem State.setErr_srcCap (e : ErrCode) : (s.setErr e).srcCap = s.srcCap := rfl
@[simp] theorem State.setErr_script (e : ErrCode) : (s.setErr e).script = s.script := rfl
@[simp] theorem State.setErr_reads (e : ErrCode) : (s.setErr e).reads = s.reads := rfl

/-! ## `setHeader` -/

@[simp] theorem State.setHeader_src (m0 m1 m2 m3 p c : Byte) : (s.setHeader m0 m1 m2 m3 p c).src = s.src := rfl
@[simp] theorem State.setHeader_srcLen (m0 m1 m2 m3 p c : Byte) : (s.setHeader m0 m1 m2 m3 p c).srcLen = s.srcLen := rfl
@[simp] theorem State.setHeader_magic0 (m0 m1 m2 m3 p c : Byte) : (s.setHeader m0 m1 m2 m3 p c).magic0 = m0 := rfl
@[simp] theorem State.setHeader_magic1 (m0 m1 m2 m3 p c : Byte) : (s.setHeader m0 m1 m2 m3 p c).magic1 = m1 := rfl
@[simp] theorem State.setHeader_magic2 (m0 m1 m2 m3 p c : Byte) : (s.setHeader m0 m1 m2 m3 p c).magic2 = m2 := rfl
@[simp] theorem State.setHeader_magic3 (m0 m1 m2 m3 p c : Byte) : (s.setHeader m0 m1 m2 m3 p c).magic3 = m3 := rfl
@[simp] theorem State.setHeader_prg (m0 m1 m2 m3 p c : Byte) : (s.setHeader m0 m1 m2 m3 p c).prg = p := rfl
@[simp] theorem State.setHeader_chr (m0 m1 m2 m3 p c : Byte) : (s.setHeader m0 m1 m2 m3 p c).chr = c := rfl
@[simp] theorem State.setHeader_chrStart (m0 m1 m2 m3 p c : Byte) : (s.setHeader m0 m1 m2 m3 p c).chrStart = s.chrStart := rfl
@[simp] theorem State.setHeader_chrEnd (m0 m1 m2 m3 p c : Byte) : (s.setHeader m0 m1 m2 m3 p c).chrEnd = s.chrEnd := rfl
@[simp] theorem State.setHeader_err (m0 m1 m2 m3 p c : Byte) : (s.setHeader m0 m1 m2 m3 p c).err = s.err := rfl
@[simp] theorem State.setHeader_chunk (m0 m1 m2 m3 p c : Byte) : (s.setHeader m0 m1 m2 m3 p c).chunk = s.chunk := rfl
@[simp] theorem State.setHeader_pix (m0 m1 m2 m3 p c : Byte) : (s.setHeader m0 m1 m2 m3 p c).pix = s.pix := rfl
@[simp] theorem State.setHeader_tile (m0 m1 m2 m3 p c : Byte) : (s.setHeader m0 m1 m2 m3 p c).tile = s.tile := rfl
@[simp] theorem State.setHeader_tileCount (m0 m1 m2 m3 p c : Byte) : (s.setHeader m0 m1 m2 m3 p c).tileCount = s.tileCount := rfl
@[simp] theorem State.setHeader_tpr (m0 m1 m2 m3 p c : Byte) : (s.setHeader m0 m1 m2 m3 p c).tpr = s.tpr := rfl
@[simp] theorem State.setHeader_cidx (m0 m1 m2 m3 p c : Byte) : (s.setHeader m0 m1 m2 m3 p c).cidx = s.cidx := rfl
@[simp] theorem State.setHeader_inten (m0 m1 m2 m3 p c : Byte) : (s.setHeader m0 m1 m2 m3 p c).inten = s.inten := rfl
@[simp] theorem State.setHeader_grid (m0 m1 m2 m3 p c : Byte) : (s.setHeader m0 m1 m2 m3 p c).grid = s.grid := rfl
@[simp] theorem State.setHeader_gridW (m0 m1 m2 m3 p c : Byte) : (s.setHeader m0 m1 m2 m3 p c).gridW = s.gridW := rfl
@[simp] theorem State.setHeader_gridH (m0 m1 m2 m3 p c : Byte) : (s.setHeader m0 m1 m2 m3 p c).gridH = s.gridH := rfl
@[simp] theorem State.setHeader_rows (m0 m1 m2 m3 p c : Byte) : (s.setHeader m0 m1 m2 m3 p c).rows = s.rows := rfl
@[simp] theorem State.setHeader_srcCap (m0 m1 m2 m3 p c : Byte) : (s.setHeader m0 m1 m2 m3 p c).srcCap = s.srcCap := rfl
@[simp] theorem State.setHeader_script (m0 m1 m2 m3 p c : Byte) : (s.setHeader m0 m1 m2 m3 p c).script = s.script := rfl
@[simp] theorem State.setHeader_reads (m0 m1 m2 m3 p c : Byte) : (s.setHeader m0 m1 m2 m3 p c).reads = s.reads := rfl

/-! ## `setDescriptor` -/

@[simp] theorem State.setDescriptor_src (a b : Word) : (s.setDescriptor a b).src = s.src := rfl
@[simp] theorem State.setDescriptor_srcLen (a b : Word) : (s.setDescriptor a b).srcLen = s.srcLen := rfl
@[simp] theorem State.setDescriptor_magic0 (a b : Word) : (s.setDescriptor a b).magic0 = s.magic0 := rfl
@[simp] theorem State.setDescriptor_magic1 (a b : Word) : (s.setDescriptor a b).magic1 = s.magic1 := rfl
@[simp] theorem State.setDescriptor_magic2 (a b : Word) : (s.setDescriptor a b).magic2 = s.magic2 := rfl
@[simp] theorem State.setDescriptor_magic3 (a b : Word) : (s.setDescriptor a b).magic3 = s.magic3 := rfl
@[simp] theorem State.setDescriptor_prg (a b : Word) : (s.setDescriptor a b).prg = s.prg := rfl
@[simp] theorem State.setDescriptor_chr (a b : Word) : (s.setDescriptor a b).chr = s.chr := rfl
@[simp] theorem State.setDescriptor_chrStart (a b : Word) : (s.setDescriptor a b).chrStart = a := rfl
@[simp] theorem State.setDescriptor_chrEnd (a b : Word) : (s.setDescriptor a b).chrEnd = b := rfl
@[simp] theorem State.setDescriptor_err (a b : Word) : (s.setDescriptor a b).err = s.err := rfl
@[simp] theorem State.setDescriptor_chunk (a b : Word) : (s.setDescriptor a b).chunk = s.chunk := rfl
@[simp] theorem State.setDescriptor_pix (a b : Word) : (s.setDescriptor a b).pix = s.pix := rfl
@[simp] theorem State.setDescriptor_tile (a b : Word) : (s.setDescriptor a b).tile = s.tile := rfl
@[simp] theorem State.setDescriptor_tileCount (a b : Word) : (s.setDescriptor a b).tileCount = s.tileCount := rfl
@[simp] theorem State.setDescriptor_tpr (a b : Word) : (s.setDescriptor a b).tpr = s.tpr := rfl
@[simp] theorem State.setDescriptor_cidx (a b : Word) : (s.setDescriptor a b).cidx = s.cidx := rfl
@[simp] theorem State.setDescriptor_inten (a b : Word) : (s.setDescriptor a b).inten = s.inten := rfl
@[simp] theorem State.setDescriptor_grid (a b : Word) : (s.setDescriptor a b).grid = s.grid := rfl
@[simp] theorem State.setDescriptor_gridW (a b : Word) : (s.setDescriptor a b).gridW = s.gridW := rfl
@[simp] theorem State.setDescriptor_gridH (a b : Word) : (s.setDescriptor a b).gridH = s.gridH := rfl
@[simp] theorem State.setDescriptor_rows (a b : Word) : (s.setDescriptor a b).rows = s.rows := rfl
@[simp] theorem State.setDescriptor_srcCap (a b : Word) : (s.setDescriptor a b).srcCap = s.srcCap := rfl
@[simp] theorem State.setDescriptor_script (a b : Word) : (s.setDescriptor a b).script = s.script := rfl
@[simp] theorem State.setDescriptor_reads (a b : Word) : (s.setDescriptor a b).reads = s.reads := rfl

/-! ## `setPix` -/

@[simp] theorem State.setPix_src (p : Tile) : (s.setPix p).src = s.src := rfl
@[simp] theorem State.setPix_srcLen (p : Tile) : (s.setPix p).srcLen = s.srcLen := rfl
@[simp] theorem State.setPix_magic0 (p : Tile) : (s.setPix p).magic0 = s.magic0 := rfl
@[simp] theorem State.setPix_magic1 (p : Tile) : (s.setPix p).magic1 = s.magic1 := rfl
@[simp] theorem State.setPix_magic2 (p : Tile) : (s.setPix p).magic2 = s.magic2 := rfl
@[simp] theorem State.setPix_magic3 (p : Tile) : (s.setPix p).magic3 = s.magic3 := rfl
@[simp] theorem State.setPix_prg (p : Tile) : (s.setPix p).prg = s.prg := rfl
@[simp] theorem State.setPix_chr (p : Tile) : (s.setPix p).chr = s.chr := rfl
@[simp] theorem State.setPix_chrStart (p : Tile) : (s.setPix p).chrStart = s.chrStart := rfl
@[simp] theorem State.setPix_chrEnd (p : Tile) : (s.setPix p).chrEnd = s.chrEnd := rfl
@[simp] theorem State.setPix_err (p : Tile) : (s.setPix p).err = s.err := rfl
@[simp] theorem State.setPix_chunk (p : Tile) : (s.setPix p).chunk = s.chunk := rfl
@[simp] theorem State.setPix_pix (p : Tile) : (s.setPix p).pix = p := rfl
@[simp] theorem State.setPix_tile (p : Tile) : (s.setPix p).tile = s.tile := rfl
@[simp] theorem State.setPix_tileCount (p : Tile) : (s.setPix p).tileCount = s.tileCount := rfl
@[simp] theorem State.setPix_tpr (p : Tile) : (s.setPix p).tpr = s.tpr := rfl
@[simp] theorem State.setPix_cidx (p : Tile) : (s.setPix p).cidx = s.cidx := rfl
@[simp] theorem State.setPix_inten (p : Tile) : (s.setPix p).inten = s.inten := rfl
@[simp] theorem State.setPix_grid (p : Tile) : (s.setPix p).grid = s.grid := rfl
@[simp] theorem State.setPix_gridW (p : Tile) : (s.setPix p).gridW = s.gridW := rfl
@[simp] theorem State.setPix_gridH (p : Tile) : (s.setPix p).gridH = s.gridH := rfl
@[simp] theorem State.setPix_rows (p : Tile) : (s.setPix p).rows = s.rows := rfl
@[simp] theorem State.setPix_srcCap (p : Tile) : (s.setPix p).srcCap = s.srcCap := rfl
@[simp] theorem State.setPix_script (p : Tile) : (s.setPix p).script = s.script := rfl
@[simp] theorem State.setPix_reads (p : Tile) : (s.setPix p).reads = s.reads := rfl

/-! ## `setTiles` -/

@[simp] theorem State.setTiles_src (ts : List Tile) : (s.setTiles ts).src = s.src := rfl
@[simp] theorem State.setTiles_srcLen (ts : List Tile) : (s.setTiles ts).srcLen = s.srcLen := rfl
@[simp] theorem State.setTiles_magic0 (ts : List Tile) : (s.setTiles ts).magic0 = s.magic0 := rfl
@[simp] theorem State.setTiles_magic1 (ts : List Tile) : (s.setTiles ts).magic1 = s.magic1 := rfl
@[simp] theorem State.setTiles_magic2 (ts : List Tile) : (s.setTiles ts).magic2 = s.magic2 := rfl
@[simp] theorem State.setTiles_magic3 (ts : List Tile) : (s.setTiles ts).magic3 = s.magic3 := rfl
@[simp] theorem State.setTiles_prg (ts : List Tile) : (s.setTiles ts).prg = s.prg := rfl
@[simp] theorem State.setTiles_chr (ts : List Tile) : (s.setTiles ts).chr = s.chr := rfl
@[simp] theorem State.setTiles_chrStart (ts : List Tile) : (s.setTiles ts).chrStart = s.chrStart := rfl
@[simp] theorem State.setTiles_chrEnd (ts : List Tile) : (s.setTiles ts).chrEnd = s.chrEnd := rfl
@[simp] theorem State.setTiles_err (ts : List Tile) : (s.setTiles ts).err = s.err := rfl
@[simp] theorem State.setTiles_chunk (ts : List Tile) : (s.setTiles ts).chunk = s.chunk := rfl
@[simp] theorem State.setTiles_pix (ts : List Tile) : (s.setTiles ts).pix = s.pix := rfl
@[simp] theorem State.setTiles_tile (ts : List Tile) : (s.setTiles ts).tile = ts := rfl
@[simp] theorem State.setTiles_tileCount (ts : List Tile) : (s.setTiles ts).tileCount = BitVec.ofNat 32 ts.length := rfl
@[simp] theorem State.setTiles_tpr (ts : List Tile) : (s.setTiles ts).tpr = s.tpr := rfl
@[simp] theorem State.setTiles_cidx (ts : List Tile) : (s.setTiles ts).cidx = s.cidx := rfl
@[simp] theorem State.setTiles_inten (ts : List Tile) : (s.setTiles ts).inten = s.inten := rfl
@[simp] theorem State.setTiles_grid (ts : List Tile) : (s.setTiles ts).grid = s.grid := rfl
@[simp] theorem State.setTiles_gridW (ts : List Tile) : (s.setTiles ts).gridW = s.gridW := rfl
@[simp] theorem State.setTiles_gridH (ts : List Tile) : (s.setTiles ts).gridH = s.gridH := rfl
@[simp] theorem State.setTiles_rows (ts : List Tile) : (s.setTiles ts).rows = s.rows := rfl
@[simp] theorem State.setTiles_srcCap (ts : List Tile) : (s.setTiles ts).srcCap = s.srcCap := rfl
@[simp] theorem State.setTiles_script (ts : List Tile) : (s.setTiles ts).script = s.script := rfl
@[simp] theorem State.setTiles_reads (ts : List Tile) : (s.setTiles ts).reads = s.reads := rfl

/-! ## `setInten` -/

@[simp] theorem State.setInten_src (v : Byte) : (s.setInten v).src = s.src := rfl
@[simp] theorem State.setInten_srcLen (v : Byte) : (s.setInten v).srcLen = s.srcLen := rfl
@[simp] theorem State.setInten_magic0 (v : Byte) : (s.setInten v).magic0 = s.magic0 := rfl
@[simp] theorem State.setInten_magic1 (v : Byte) : (s.setInten v).magic1 = s.magic1 := rfl
@[simp] theorem State.setInten_magic2 (v : Byte) : (s.setInten v).magic2 = s.magic2 := rfl
@[simp] theorem State.setInten_magic3 (v : Byte) : (s.setInten v).magic3 = s.magic3 := rfl
@[simp] theorem State.setInten_prg (v : Byte) : (s.setInten v).prg = s.prg := rfl
@[simp] theorem State.setInten_chr (v : Byte) : (s.setInten v).chr = s.chr := rfl
@[simp] theorem State.setInten_chrStart (v : Byte) : (s.setInten v).chrStart = s.chrStart := rfl
@[simp] theorem State.setInten_chrEnd (v : Byte) : (s.setInten v).chrEnd = s.chrEnd := rfl
@[simp] theorem State.setInten_err (v : Byte) : (s.setInten v).err = s.err := rfl
@[simp] theorem State.setInten_chunk (v : Byte) : (s.setInten v).chunk = s.chunk := rfl
@[simp] theorem State.setInten_pix (v : Byte) : (s.setInten v).pix = s.pix := rfl
@[simp] theorem State.setInten_tile (v : Byte) : (s.setInten v).tile = s.tile := rfl
@[simp] theorem State.setInten_tileCount (v : Byte) : (s.setInten v).tileCount = s.tileCount := rfl
@[simp] theorem State.setInten_tpr (v : Byte) : (s.setInten v).tpr = s.tpr := rfl
@[simp] theorem State.setInten_cidx (v : Byte) : (s.setInten v).cidx = s.cidx := rfl
@[simp] theorem State.setInten_inten (v : Byte) : (s.setInten v).inten = v := rfl
@[simp] theorem State.setInten_grid (v : Byte) : (s.setInten v).grid = s.grid := rfl
@[simp] theorem State.setInten_gridW (v : Byte) : (s.setInten v).gridW = s.gridW := rfl
@[simp] theorem State.setInten_gridH (v : Byte) : (s.setInten v).gridH = s.gridH := rfl
@[simp] theorem State.setInten_rows (v : Byte) : (s.setInten v).rows = s.rows := rfl
@[simp] theorem State.setInten_srcCap (v : Byte) : (s.setInten v).srcCap = s.srcCap := rfl
@[simp] theorem State.setInten_script (v : Byte) : (s.setInten v).script = s.script := rfl
@[simp] theorem State.setInten_reads (v : Byte) : (s.setInten v).reads = s.reads := rfl

/-! ## `setGrid` -/

@[simp] theorem State.setGrid_src (g : List (List Byte)) (w h r : Nat) : (s.setGrid g w h r).src = s.src := rfl
@[simp] theorem State.setGrid_srcLen (g : List (List Byte)) (w h r : Nat) : (s.setGrid g w h r).srcLen = s.srcLen := rfl
@[simp] theorem State.setGrid_magic0 (g : List (List Byte)) (w h r : Nat) : (s.setGrid g w h r).magic0 = s.magic0 := rfl
@[simp] theorem State.setGrid_magic1 (g : List (List Byte)) (w h r : Nat) : (s.setGrid g w h r).magic1 = s.magic1 := rfl
@[simp] theorem State.setGrid_magic2 (g : List (List Byte)) (w h r : Nat) : (s.setGrid g w h r).magic2 = s.magic2 := rfl
@[simp] theorem State.setGrid_magic3 (g : List (List Byte)) (w h r : Nat) : (s.setGrid g w h r).magic3 = s.magic3 := rfl
@[simp] theorem State.setGrid_prg (g : List (List Byte)) (w h r : Nat) : (s.setGrid g w h r).prg = s.prg := rfl
@[simp] theorem State.setGrid_chr (g : List (List Byte)) (w h r : Nat) : (s.setGrid g w h r).chr = s.chr := rfl
@[simp] theorem State.setGrid_chrStart (g : List (List Byte)) (w h r : Nat) : (s.setGrid g w h r).chrStart = s.chrStart := rfl
@[simp] theorem State.setGrid_chrEnd (g : List (List Byte)) (w h r : Nat) : (s.setGrid g w h r).chrEnd = s.chrEnd := rfl
@[simp] theorem State.setGrid_err (g : List (List Byte)) (w h r : Nat) : (s.setGrid g w h r).err = s.err := rfl
@[simp] theorem State.setGrid_chunk (g : List (List Byte)) (w h r : Nat) : (s.setGrid g w h r).chunk = s.chunk := rfl
@[simp] theorem State.setGrid_pix (g : List (List Byte)) (w h r : Nat) : (s.setGrid g w h r).pix = s.pix := rfl
@[simp] theorem State.setGrid_tile (g : List (List Byte)) (w h r : Nat) : (s.setGrid g w h r).tile = s.tile := rfl
@[simp] theorem State.setGrid_tileCount (g : List (List Byte)) (w h r : Nat) : (s.setGrid g w h r).tileCount = s.tileCount := rfl
@[simp] theorem State.setGrid_tpr (g : List (List Byte)) (w h r : Nat) : (s.setGrid g w h r).tpr = s.tpr := rfl
@[simp] theorem State.setGrid_cidx (g : List (List Byte)) (w h r : Nat) : (s.setGrid g w h r).cidx = s.cidx := rfl
@[simp] theorem State.setGrid_inten (g : List (List Byte)) (w h r : Nat) : (s.setGrid g w h r).inten = s.inten := rfl
@[simp] theorem State.setGrid_grid (g : List (List Byte)) (w h r : Nat) : (s.setGrid g w h r).grid = g := rfl
@[simp] theorem State.setGrid_gridW (g : List (List Byte)) (w h r : Nat) : (s.setGrid g w h r).gridW = BitVec.ofNat 32 w := rfl
@[simp] theorem State.setGrid_gridH (g : List (List Byte)) (w h r : Nat) : (s.setGrid g w h r).gridH = BitVec.ofNat 32 h := rfl
@[simp] theorem State.setGrid_rows (g : List (List Byte)) (w h r : Nat) : (s.setGrid g w h r).rows = BitVec.ofNat 32 r := rfl
@[simp] theorem State.setGrid_srcCap (g : List (List Byte)) (w h r : Nat) : (s.setGrid g w h r).srcCap = s.srcCap := rfl
@[simp] theorem State.setGrid_script (g : List (List Byte)) (w h r : Nat) : (s.setGrid g w h r).script = s.script := rfl
@[simp] theorem State.setGrid_reads (g : List (List Byte)) (w h r : Nat) : (s.setGrid g w h r).reads = s.reads := rfl

/-! ## `setSource` -/

@[simp] theorem State.setSource_src (m : Memory) (n : Word) : (s.setSource m n).src = m := rfl
@[simp] theorem State.setSource_srcLen (m : Memory) (n : Word) : (s.setSource m n).srcLen = n := rfl
@[simp] theorem State.setSource_magic0 (m : Memory) (n : Word) : (s.setSource m n).magic0 = s.magic0 := rfl
@[simp] theorem State.setSource_magic1 (m : Memory) (n : Word) : (s.setSource m n).magic1 = s.magic1 := rfl
@[simp] theorem State.setSource_magic2 (m : Memory) (n : Word) : (s.setSource m n).magic2 = s.magic2 := rfl
@[simp] theorem State.setSource_magic3 (m : Memory) (n : Word) : (s.setSource m n).magic3 = s.magic3 := rfl
@[simp] theorem State.setSource_prg (m : Memory) (n : Word) : (s.setSource m n).prg = s.prg := rfl
@[simp] theorem State.setSource_chr (m : Memory) (n : Word) : (s.setSource m n).chr = s.chr := rfl
@[simp] theorem State.setSource_chrStart (m : Memory) (n : Word) : (s.setSource m n).chrStart = s.chrStart := rfl
@[simp] theorem State.setSource_chrEnd (m : Memory) (n : Word) : (s.setSource m n).chrEnd = s.chrEnd := rfl
@[simp] theorem State.setSource_err (m : Memory) (n : Word) : (s.setSource m n).err = s.err := rfl
@[simp] theorem State.setSource_chunk (m : Memory) (n : Word) : (s.setSource m n).chunk = s.chunk := rfl
@[simp] theorem State.setSource_pix (m : Memory) (n : Word) : (s.setSource m n).pix = s.pix := rfl
@[simp] theorem State.setSource_tile (m : Memory) (n : Word) : (s.setSource m n).tile = s.tile := rfl
@[simp] theorem State.setSource_tileCount (m : Memory) (n : Word) : (s.setSource m n).tileCount = s.tileCount := rfl
@[simp] theorem State.setSource_tpr (m : Memory) (n : Word) : (s.setSource m n).tpr = s.tpr := rfl
@[simp] theorem State.setSource_cidx (m : Memory) (n : Word) : (s.setSource m n).cidx = s.cidx := rfl
@[simp] theorem State.setSource_inten (m : Memory) (n : Word) : (s.setSource m n).inten = s.inten := rfl
@[simp] theorem State.setSource_grid (m : Memory) (n : Word) : (s.setSource m n).grid = s.grid := rfl
@[simp] theorem State.setSource_gridW (m : Memory) (n : Word) : (s.setSource m n).gridW = s.gridW := rfl
@[simp] theorem State.setSource_gridH (m : Memory) (n : Word) : (s.setSource m n).gridH = s.gridH := rfl
@[simp] theorem State.setSource_rows (m : Memory) (n : Word) : (s.setSource m n).rows = s.rows := rfl
@[simp] theorem State.setSource_srcCap (m : Memory) (n : Word) : (s.setSource m n).srcCap = s.srcCap := rfl
@[simp] theorem State.setSource_script (m : Memory) (n : Word) : (s.setSource m n).script = s.script := rfl
@[simp] theorem State.setSource_reads (m : Memory) (n : Word) : (s.setSource m n).reads = s.reads := rfl

/-! ## `setTpr` -/

@[simp] theorem State.setTpr_src (v : BitVec 16) : (s.setTpr v).src = s.src := rfl
@[simp] theorem State.setTpr_srcLen (v : BitVec 16) : (s.setTpr v).srcLen = s.srcLen := rfl
@[simp] theorem State.setTpr_magic0 (v : BitVec 16) : (s.setTpr v).magic0 = s.magic0 := rfl
@[simp] theorem State.setTpr_magic1 (v : BitVec 16) : (s.setTpr v).magic1 = s.magic1 := rfl
@[simp] theorem State.setTpr_magic2 (v : BitVec 16) : (s.setTpr v).magic2 = s.magic2 := rfl
@[simp] theorem State.setTpr_magic3 (v : BitVec 16) : (s.setTpr v).magic3 = s.magic3 := rfl
@[simp] theorem State.setTpr_prg (v : BitVec 16) : (s.setTpr v).prg = s.prg := rfl
@[simp] theorem State.setTpr_chr (v : BitVec 16) : (s.setTpr v).chr = s.chr := rfl
@[simp] theorem State.setTpr_chrStart (v : BitVec 16) : (s.setTpr v).chrStart = s.chrStart := rfl
@[simp] theorem State.setTpr_chrEnd (v : BitVec 16) : (s.setTpr v).chrEnd = s.chrEnd := rfl
@[simp] theorem State.setTpr_err (v : BitVec 16) : (s.setTpr v).err = s.err := rfl
@[simp] theorem State.setTpr_chunk (v : BitVec 16) : (s.setTpr v).chunk = s.chunk := rfl
@[simp] theorem State.setTpr_pix (v : BitVec 16) : (s.setTpr v).pix = s.pix := rfl
@[simp] theorem State.setTpr_tile (v : BitVec 16) : (s.setTpr v).tile = s.tile := rfl
@[simp] theorem State.setTpr_tileCount (v : BitVec 16) : (s.setTpr v).tileCount = s.tileCount := rfl
@[simp] theorem State.setTpr_tpr (v : BitVec 16) : (s.setTpr v).tpr = v := rfl
@[simp] theorem State.setTpr_cidx (v : BitVec 16) : (s.setTpr v).cidx = s.cidx := rfl
@[simp] theorem State.setTpr_inten (v : BitVec 16) : (s.setTpr v).inten = s.inten := rfl
@[simp] theorem State.setTpr_grid (v : BitVec 16) : (s.setTpr v).grid = s.grid := rfl
@[simp] theorem State.setTpr_gridW (v : BitVec 16) : (s.setTpr v).gridW = s.gridW := rfl
@[simp] theorem State.setTpr_gridH (v : BitVec 16) : (s.setTpr v).gridH = s.gridH := rfl
@[simp] theorem State.setTpr_rows (v : BitVec 16) : (s.setTpr v).rows = s.rows := rfl
@[simp] theorem State.setTpr_srcCap (v : BitVec 16) : (s.setTpr v).srcCap = s.srcCap := rfl
@[simp] theorem State.setTpr_script (v : BitVec 16) : (s.setTpr v).script = s.script := rfl
@[simp] theorem State.setTpr_reads (v : BitVec 16) : (s.setTpr v).reads = s.reads := rfl

/-! ## `setCidx` -/

@[simp] theorem State.setCidx_src (v : Byte) : (s.setCidx v).src = s.src := rfl
@[simp] theorem State.setCidx_srcLen (v : Byte) : (s.setCidx v).srcLen = s.srcLen := rfl
@[simp] theorem State.setCidx_magic0 (v : Byte) : (s.setCidx v).magic0 = s.magic0 := rfl
@[simp] theorem State.setCidx_magic1 (v : Byte) : (s.setCidx v).magic1 = s.magic1 := rfl
@[simp] theorem State.setCidx_magic2 (v : Byte) : (s.setCidx v).magic2 = s.magic2 := rfl
@[simp] theorem State.setCidx_magic3 (v : Byte) : (s.setCidx v).magic3 = s.magic3 := rfl
@[simp] theorem State.setCidx_prg (v : Byte) : (s.setCidx v).prg = s.prg := rfl
@[simp] theorem State.setCidx_chr (v : Byte) : (s.setCidx v).chr = s.chr := rfl
@[simp] theorem State.setCidx_chrStart (v : Byte) : (s.setCidx v).chrStart = s.chrStart := rfl
@[simp] theorem State.setCidx_chrEnd (v : Byte) : (s.setCidx v).chrEnd = s.chrEnd := rfl
@[simp] theorem State.setCidx_err (v : Byte) : (s.setCidx v).err = s.err := rfl
@[simp] theorem State.setCidx_chunk (v : Byte) : (s.setCidx v).chunk = s.chunk := rfl
@[simp] theorem State.setCidx_pix (v : Byte) : (s.setCidx v).pix = s.pix := rfl
@[simp] theorem State.setCidx_tile (v : Byte) : (s.setCidx v).tile = s.tile := rfl
@[simp] theorem State.setCidx_tileCount (v : Byte) : (s.setCidx v).tileCount = s.tileCount := rfl
@[simp] theorem State.setCidx_tpr (v : Byte) : (s.setCidx v).tpr = s.tpr := rfl
@[simp] theorem State.setCidx_cidx (v : Byte) : (s.setCidx v).cidx = v := rfl
@[simp] theorem State.setCidx_inten (v : Byte) : (s.setCidx v).inten = s.inten := rfl
@[simp] theorem State.setCidx_grid (v : Byte) : (s.setCidx v).grid = s.grid := rfl
@[simp] theorem State.setCidx_gridW (v : Byte) : (s.setCidx v).gridW = s.gridW := rfl
@[simp] theorem State.setCidx_gridH (v : Byte) : (s.setCidx v).gridH = s.gridH := rfl
@[simp] theorem State.setCidx_rows (v : Byte) : (s.setCidx v).rows = s.rows := rfl
@[simp] theorem State.setCidx_srcCap (v : Byte) : (s.setCidx v).srcCap = s.srcCap := rfl
@[simp] theorem State.setCidx_script (v : Byte) : (s.setCidx v).script = s.script := rfl
@[simp] theorem State.setCidx_reads (v : Byte) : (s.setCidx v).reads = s.reads := rfl

/-! ## `setChunk` -/

@[simp] theorem State.setChunk_src (b : Vector Byte 16) : (s.setChunk b).src = s.src := rfl
@[simp] theorem State.setChunk_srcLen (b : Vector Byte 16) : (s.setChunk b).srcLen = s.srcLen := rfl
@[simp] theorem State.setChunk_magic0 (b : Vector Byte 16) : (s.setChunk b).magic0 = s.magic0 := rfl
@[simp] theorem State.setChunk_magic1 (b : Vector Byte 16) : (s.setChunk b).magic1 = s.magic1 := rfl
@[simp] theorem State.setChunk_magic2 (b : Vector Byte 16) : (s.setChunk b).magic2 = s.magic2 := rfl
@[simp] theorem State.setChunk_magic3 (b : Vector Byte 16) : (s.setChunk b).magic3 = s.magic3 := rfl
@[simp] theorem State.setChunk_prg (b : Vector Byte 16) : (s.setChunk b).prg = s.prg := rfl
@[simp] theorem State.setChunk_chr (b : Vector Byte 16) : (s.setChunk b).chr = s.chr := rfl
@[simp] theorem State.setChunk_chrStart (b : Vector Byte 16) : (s.setChunk b).chrStart = s.chrStart := rfl
@[simp] theorem State.setChunk_chrEnd (b : Vector Byte 16) : (s.setChunk b).chrEnd = s.chrEnd := rfl
@[simp] theorem State.setChunk_err (b : Vector Byte 16) : (s.setChunk b).err = s.err := rfl
@[simp] theorem State.setChunk_chunk (b : Vector Byte 16) : (s.setChunk b).chunk = b := rfl
@[simp] theorem State.setChunk_pix (b : Vector Byte 16) : (s.setChunk b).pix = s.pix := rfl
@[simp] theorem State.setChunk_tile (b : Vector Byte 16) : (s.setChunk b).tile = s.tile := rfl
@[simp] theorem State.setChunk_tileCount (b : Vector Byte 16) : (s.setChunk b).tileCount = s.tileCount := rfl
@[simp] theorem State.setChunk_tpr (b : Vector Byte 16) : (s.setChunk b).tpr = s.tpr := rfl
@[simp] theorem State.setChunk_cidx (b : Vector Byte 16) : (s.setChunk b).cidx = s.cidx := rfl
@[simp] theorem State.setChunk_inten (b : Vector Byte 16) : (s.setChunk b).inten = s.inten := rfl
@[simp] theorem State.setChunk_grid (b : Vector Byte 16) : (s.setChunk b).grid = s.grid := rfl
@[simp] theorem State.setChunk_gridW (b : Vector Byte 16) : (s.setChunk b).gridW = s.gridW := rfl
@[simp] theorem State.setChunk_gridH (b : Vector Byte 16) : (s.setChunk b).gridH = s.gridH := rfl
@[simp] theorem State.setChunk_rows (b : Vector Byte 16) : (s.setChunk b).rows = s.rows := rfl
@[simp] theorem State.setChunk_srcCap (b : Vector Byte 16) : (s.setChunk b).srcCap = s.srcCap := rfl
@[simp] theorem State.setChunk_script (b : Vector Byte 16) : (s.setChunk b).script = s.script := rfl
@[simp] theorem State.setChunk_reads (b : Vector Byte 16) : (s.setChunk b).reads = s.reads := rfl

/-! ## `setHost` -/

@[simp] theorem State.setHost_src (l : List HostAction) (v : List HostValue) : (s.setHost l v).src = s.src := rfl
@[simp] theorem State.setHost_srcLen (l : List HostAction) (v : List HostValue) : (s.setHost l v).srcLen = s.srcLen := rfl
@[simp] theorem State.setHost_magic0 (l : List HostAction) (v : List HostValue) : (s.setHost l v).magic0 = s.magic0 := rfl
@[simp] theorem State.setHost_magic1 (l : List HostAction) (v : List HostValue) : (s.setHost l v).magic1 = s.magic1 := rfl
@[simp] theorem State.setHost_magic2 (l : List HostAction) (v : List HostValue) : (s.setHost l v).magic2 = s.magic2 := rfl
@[simp] theorem State.setHost_magic3 (l : List HostAction) (v : List HostValue) : (s.setHost l v).magic3 = s.magic3 := rfl
@[simp] theorem State.setHost_prg (l : List HostAction) (v : List HostValue) : (s.setHost l v).prg = s.prg := rfl
@[simp] theorem State.setHost_chr (l : List HostAction) (v : List HostValue) : (s.setHost l v).chr = s.chr := rfl
@[simp] theorem State.setHost_chrStart (l : List HostAction) (v : List HostValue) : (s.setHost l v).chrStart = s.chrStart := rfl
@[simp] theorem State.setHost_chrEnd (l : List HostAction) (v : List HostValue) : (s.setHost l v).chrEnd = s.chrEnd := rfl
@[simp] theorem State.setHost_err (l : List HostAction) (v : List HostValue) : (s.setHost l v).err = s.err := rfl
@[simp] theorem State.setHost_chunk (l : List HostAction) (v : List HostValue) : (s.setHost l v).chunk = s.chunk := rfl
@[simp] theorem State.setHost_pix (l : List HostAction) (v : List HostValue) : (s.setHost l v).pix = s.pix := rfl
@[simp] theorem State.setHost_tile (l : List HostAction) (v : List HostValue) : (s.setHost l v).tile = s.tile := rfl
@[simp] theorem State.setHost_tileCount (l : List HostAction) (v : List HostValue) : (s.setHost l v).tileCount = s.tileCount := rfl
@[simp] theorem State.setHost_tpr (l : List HostAction) (v : List HostValue) : (s.setHost l v).tpr = s.tpr := rfl
@[simp] theorem State.setHost_cidx (l : List HostAction) (v : List HostValue) : (s.setHost l v).cidx = s.cidx := rfl
@[simp] theorem State.setHost_inten (l : List HostAction) (v : List HostValue) : (s.setHost l v).inten = s.inten := rfl
@[simp] theorem State.setHost_grid (l : List HostAction) (v : List HostValue) : (s.setHost l v).grid = s.grid := rfl
@[simp] theorem State.setHost_gridW (l : List HostAction) (v : List HostValue) : (s.setHost l v).gridW = s.gridW := rfl
@[simp] theorem State.setHost_gridH (l : List HostAction) (v : List HostValue) : (s.setHost l v).gridH = s.gridH := rfl
@[simp] theorem State.setHost_rows (l : List HostAction) (v : List HostValue) : (s.setHost l v).rows = s.rows := rfl
@[simp] theorem State.setHost_srcCap (l : List HostAction) (v : List HostValue) : (s.setHost l v).srcCap = s.srcCap := rfl
@[simp] theorem State.setHost_script (l : List HostAction) (v : List HostValue) : (s.setHost l v).script = l := rfl
@[simp] theorem State.setHost_reads (l : List HostAction) (v : List HostValue) : (s.setHost l v).reads = v := rfl

/-! ## `emptyOutputs` -/

@[simp] theorem State.emptyOutputs_eq : s.emptyOutputs = (s.setTiles []).setGrid [] 0 0 0 := rfl

end Sys2Proof.Machine
end

