-- ==== Sys2Proof/Laws/SheetCompositor.lean ====
section
/-! SUPPORT. The Sheet Compositor's pure functions, cell by cell. -/

namespace Sys2Proof.Machine

theorem mapColor_of_le (n : Nat) (h : 4 ≤ n) : mapColor n = 0#8 := by
  match n, h with
  | n + 4, _ => rfl

theorem compose_length (tiles : List Tile) (t : Nat) : (compose tiles t).length = 8 * rowCount tiles.length t := by
  simp [compose, Config.tileDim]

theorem gridRow_length (tiles : List Tile) (t r : Nat) : (gridRow tiles t r).length = 8 * t := by
  simp [gridRow, Config.tileDim]

/-- The cell `[r][c]` of the composed grid, read from the grid's side: the tile of its block, or background. -/
theorem compose_getElem (tiles : List Tile) (t r c : Nat) (hr : r < 8 * rowCount tiles.length t) (hc : c < 8 * t) :
    ((compose tiles t)[r]?.bind (·[c]?)) =
      some (match tiles[r / 8 * t + c / 8]? with
        | some tile => mapColor (tile[r % 8]'(Nat.mod_lt r (by decide)))[c % 8].toNat
        | none => Config.bg) := by
  have hr' : r < Config.tileDim * rowCount tiles.length t := hr
  have hc' : c < Config.tileDim * t := hc
  cases h : tiles[r / 8 * t + c / 8]? <;>
    simp only [compose, gridRow, bandSample, List.getElem?_map, List.getElem?_range hr', List.getElem?_range hc',
      Option.map_some, Option.bind_some, List.getElem?_drop, h]

end Sys2Proof.Machine
end

