-- ==== Sys2Proof/Laws/Memory.lean ====
section
/-! SUPPORT. The source buffer's memory: read after write, the canonical form, and what a run of bytes reads. -/

namespace Sys2Proof.Machine

/-! ## Canonical form -/

theorem wfFrom_mono {lo lo' : Nat} {m : Memory} (h : Memory.wfFrom lo m = true) (hle : lo' ≤ lo) :
    Memory.wfFrom lo' m = true := by
  cases m with
  | nil => rfl
  | cons cell m =>
    simp only [Memory.wfFrom, Bool.and_eq_true, decide_eq_true_eq] at h ⊢
    exact ⟨hle.trans h.1, h.2⟩

theorem wfFrom_cons {lo : Nat} {cell : Host.Cell} {m : Memory} :
    Memory.wfFrom lo (cell :: m) = true ↔ lo ≤ cell.1 ∧ Memory.wfFrom (cell.1 + 1) m = true := by
  simp [Memory.wfFrom]

theorem wfFrom_memWrite {lo : Nat} {m : Memory} (h : Memory.wfFrom lo m = true) {a : Nat} (ha : lo ≤ a) (v : Byte) :
    Memory.wfFrom lo (memWrite m a v) = true := by
  induction m generalizing lo with
  | nil => simp [memWrite, Memory.wfFrom, ha]
  | cons cell m ih =>
    rw [wfFrom_cons] at h
    unfold memWrite
    split
    · rename_i hlt
      exact wfFrom_cons.2 ⟨ha, wfFrom_cons.2 ⟨hlt, h.2⟩⟩
    · split
      · rename_i heq
        exact wfFrom_cons.2 ⟨ha, by simpa [heq] using h.2⟩
      · exact wfFrom_cons.2 ⟨h.1, ih h.2 (by omega)⟩

theorem wf_memWrite {m : Memory} (h : Memory.wf m = true) (a : Nat) (v : Byte) : Memory.wf (memWrite m a v) = true :=
  wfFrom_memWrite h (Nat.zero_le a) v

theorem wfFrom_memTruncate {lo : Nat} {m : Memory} (h : Memory.wfFrom lo m = true) (n : Nat) :
    Memory.wfFrom lo (memTruncate m n) = true := by
  induction m generalizing lo with
  | nil => rfl
  | cons cell m ih =>
    rw [wfFrom_cons] at h
    unfold memTruncate
    split
    · exact wfFrom_cons.2 ⟨h.1, ih h.2⟩
    · exact wfFrom_mono (ih h.2) (by omega)

theorem wf_memTruncate {m : Memory} (h : Memory.wf m = true) (n : Nat) : Memory.wf (memTruncate m n) = true :=
  wfFrom_memTruncate h n

theorem wfFrom_memOfBytes (a : Nat) (bytes : List Byte) : Memory.wfFrom a (memOfBytes a bytes) = true := by
  induction bytes generalizing a with
  | nil => rfl
  | cons b bytes ih => exact wfFrom_cons.2 ⟨le_refl a, ih (a + 1)⟩

theorem wf_memOfBytes (bytes : List Byte) : Memory.wf (memOfBytes 0 bytes) = true :=
  wfFrom_memOfBytes 0 bytes

/-! ## Which addresses are listed -/

theorem mem_memTruncate {m : Memory} {n : Nat} {cell : Host.Cell} :
    cell ∈ memTruncate m n ↔ cell ∈ m ∧ cell.1 < n := by
  induction m with
  | nil => simp [memTruncate]
  | cons c m ih =>
    unfold memTruncate
    split <;> simp only [List.mem_cons, ih]
    · constructor
      · rintro (rfl | h)
        · exact ⟨.inl rfl, ‹_›⟩
        · exact ⟨.inr h.1, h.2⟩
      · rintro ⟨rfl | h, h2⟩
        · exact .inl rfl
        · exact .inr ⟨h, h2⟩
    · constructor
      · rintro h
        exact ⟨.inr h.1, h.2⟩
      · rintro ⟨rfl | h, h2⟩
        · contradiction
        · exact ⟨h, h2⟩

theorem mem_memWrite {m : Memory} {a : Nat} {v : Byte} {cell : Host.Cell} (h : cell ∈ memWrite m a v) :
    cell = (a, v) ∨ cell ∈ m := by
  induction m with
  | nil => simpa [memWrite] using h
  | cons c m ih =>
    unfold memWrite at h
    split at h
    · simpa using h
    · split at h
      · rcases List.mem_cons.1 h with h | h
        · exact .inl h
        · exact .inr (List.mem_cons_of_mem _ h)
      · rcases List.mem_cons.1 h with h | h
        · exact .inr (by simp [h])
        · exact (ih h).imp id (List.mem_cons_of_mem _)

theorem mem_memOfBytes {a : Nat} {bytes : List Byte} {cell : Host.Cell} (h : cell ∈ memOfBytes a bytes) :
    cell.1 < a + bytes.length := by
  induction bytes generalizing a with
  | nil => simp [memOfBytes] at h
  | cons b bytes ih =>
    rcases List.mem_cons.1 h with rfl | h
    · simp
    · have := ih h
      simp only [List.length_cons]
      omega

/-! ## Reading one byte -/

theorem memLookup_below {lo : Nat} {m : Memory} (h : Memory.wfFrom lo m = true) {a : Nat} (ha : a < lo) :
    memLookup m a = none := by
  induction m generalizing lo with
  | nil => rfl
  | cons cell m ih =>
    rw [wfFrom_cons] at h
    have hne : cell.1 ≠ a := by omega
    simp only [memLookup, hne, if_false]
    exact ih h.2 (by omega)

/-- Read after write: the byte written at its address, every other byte as before. -/
theorem memLookup_memWrite {m : Memory} (h : Memory.wf m = true) (a b : Nat) (v : Byte) :
    memLookup (memWrite m a v) b = if b = a then some v else memLookup m b := by
  suffices ∀ lo, Memory.wfFrom lo m = true → memLookup (memWrite m a v) b = if b = a then some v else memLookup m b from
    this 0 h
  clear h
  rcases eq_or_ne b a with rfl | hne
  · induction m with
    | nil => simp [memWrite, memLookup]
    | cons cell m ih =>
      intro lo h
      rw [wfFrom_cons] at h
      unfold memWrite
      split
      · simp [memLookup]
      · split
        · simp [memLookup]
        · have hc : cell.1 ≠ b := by omega
          simpa only [memLookup, hc, if_false] using ih _ h.2
  · have hne' : a ≠ b := hne.symm
    induction m with
    | nil => simp [memWrite, memLookup, hne, hne']
    | cons cell m ih =>
      intro lo h
      rw [wfFrom_cons] at h
      have ih' := ih _ h.2
      simp only [hne, if_false] at ih' ⊢
      unfold memWrite
      split
      · simp [memLookup, hne']
      · split
        · rename_i heq
          simp [memLookup, ← heq, hne']
        · simp only [memLookup, ih']

theorem memLookup_memTruncate {m : Memory} (h : Memory.wf m = true) (n b : Nat) :
    memLookup (memTruncate m n) b = if b < n then memLookup m b else none := by
  suffices ∀ lo, Memory.wfFrom lo m = true → memLookup (memTruncate m n) b = if b < n then memLookup m b else none from
    this 0 h
  clear h
  induction m with
  | nil =>
    intro _ _
    simp [memTruncate, memLookup]
  | cons cell m ih =>
    intro lo h
    rw [wfFrom_cons] at h
    unfold memTruncate
    split
    · simp only [memLookup, ih _ h.2]
      split <;> split <;> first | rfl | omega
    · rw [ih _ h.2]
      split
      · have : cell.1 ≠ b := by omega
        simp [memLookup, this]
      · rfl

theorem memLookup_memOfBytes (a b : Nat) (bytes : List Byte) :
    memLookup (memOfBytes a bytes) b = if a ≤ b then bytes[b - a]? else none := by
  induction bytes generalizing a with
  | nil => simp [memOfBytes, memLookup]
  | cons v bytes ih =>
    simp only [memOfBytes, memLookup, ih]
    by_cases h1 : a = b
    · simp [h1]
    · by_cases h2 : a ≤ b
      · have h3 : a + 1 ≤ b := by omega
        have h4 : b - a = (b - (a + 1)) + 1 := by omega
        simp [h1, h2, h3, h4]
      · have h3 : ¬ a + 1 ≤ b := by omega
        simp [h1, h2, h3]

/-! ## Reading a run of bytes -/

theorem memRun_zero (m : Memory) (a : Nat) : memRun m a 0 = some [] := by
  cases m <;> rfl

theorem memRun_length {m : Memory} {a n : Nat} {bytes : List Byte} (h : memRun m a n = some bytes) :
    bytes.length = n := by
  induction m generalizing a n bytes with
  | nil =>
    cases n with
    | zero => rw [memRun_zero] at h; cases h; rfl
    | succ n => simp [memRun] at h
  | cons cell m ih =>
    cases n with
    | zero => rw [memRun_zero] at h; cases h; rfl
    | succ n =>
      unfold memRun at h
      split at h
      · exact ih h
      · split at h
        · split at h
          · rename_i hr
            cases h
            simp [ih hr]
          · cases h
        · cases h

/-- A run of bytes read from a canonical memory is the bytes read one by one. -/
theorem memRun_eq_some {lo : Nat} {m : Memory} (h : Memory.wfFrom lo m = true) {a n : Nat} {bytes : List Byte} :
    memRun m a n = some bytes ↔ bytes.length = n ∧ ∀ k < n, memLookup m (a + k) = bytes[k]? := by
  induction m generalizing lo a n bytes with
  | nil =>
    cases n with
    | zero => simp [memRun_zero, eq_comm (a := [])]
    | succ n =>
      simp only [memRun, memLookup, reduceCtorEq, false_iff, not_and, not_forall]
      intro hl
      refine ⟨0, by omega, ?_⟩
      cases bytes with
      | nil => simp at hl
      | cons b bs => simp
  | cons cell m ih =>
    cases n with
    | zero => simp [memRun_zero, eq_comm (a := [])]
    | succ n =>
      rw [wfFrom_cons] at h
      unfold memRun
      split
      · rw [ih h.2]
        refine and_congr_right fun _ => forall₂_congr fun k _ => ?_
        have : cell.1 ≠ a + k := by omega
        simp [memLookup, this]
      · split
        · rename_i heq
          cases bytes with
          | nil =>
            simp only [List.length_nil]
            constructor
            · intro hc
              split at hc <;> simp at hc
            · rintro ⟨hc, -⟩
              omega
          | cons b bs =>
            have key : memRun m (a + 1) n = some bs ↔ bs.length = n ∧ ∀ k < n, memLookup m (a + 1 + k) = bs[k]? := ih h.2
            constructor
            · intro hc
              split at hc
              · rename_i bs' hr
                simp only [Option.some.injEq, List.cons.injEq] at hc
                obtain ⟨rfl, rfl⟩ := hc
                obtain ⟨hl, hk⟩ := key.1 hr
                refine ⟨by simp [hl], fun k hkn => ?_⟩
                cases k with
                | zero => simp [memLookup, heq]
                | succ k =>
                  have h2 := hk k (by omega)
                  have h3 : cell.1 ≠ a + (k + 1) := by omega
                  have h4 : a + (k + 1) = a + 1 + k := by omega
                  simp only [memLookup, h3, if_false]
                  rw [h4, h2]
                  simp
              · cases hc
            · rintro ⟨hl, hk⟩
              have h0 := hk 0 (by omega)
              simp only [memLookup, Nat.add_zero, heq, if_true, List.getElem?_cons_zero, Option.some.injEq] at h0
              have hr : memRun m (a + 1) n = some bs := by
                refine key.2 ⟨by simpa using hl, fun k hkn => ?_⟩
                have h2 := hk (k + 1) (by omega)
                have h3 : cell.1 ≠ a + (k + 1) := by omega
                have h4 : a + (k + 1) = a + 1 + k := by omega
                simp only [memLookup, h3, if_false, List.getElem?_cons_succ] at h2
                rw [← h4, h2]
              rw [hr]
              simp [h0]
        · simp only [reduceCtorEq, false_iff, not_and, not_forall]
          intro hl
          refine ⟨0, by omega, ?_⟩
          have h2 : cell.1 ≠ a := by omega
          have h3 : memLookup (cell :: m) (a + 0) = none := by
            simp only [memLookup, Nat.add_zero, h2, if_false]
            exact memLookup_below h.2 (by omega)
          rw [h3]
          cases bytes with
          | nil => simp at hl
          | cons b bs => simp

/-- A run of bytes is there exactly when each of its bytes is. -/
theorem memRun_isSome {m : Memory} (h : Memory.wf m = true) (a n : Nat) :
    (memRun m a n).isSome = true ↔ ∀ k < n, (memLookup m (a + k)).isSome = true := by
  constructor
  · intro hs k hk
    obtain ⟨bytes, hb⟩ := Option.isSome_iff_exists.1 hs
    obtain ⟨hl, hr⟩ := (memRun_eq_some h).1 hb
    rw [hr k hk]
    simp [hl, hk]
  · intro hs
    let bytes := (List.finRange n).map fun k => (memLookup m (a + k.val)).get (hs k.val k.isLt)
    have : memRun m a n = some bytes := by
      refine (memRun_eq_some h).2 ⟨by simp [bytes], fun k hk => ?_⟩
      simp [bytes, hk]
    simp [this]

end Sys2Proof.Machine
end

