-- ==== Sys2Proof/Laws/TileDecoder.lean ====
section
/-! SUPPORT. The Tile Decoder's pure functions, cell by cell. -/

namespace Sys2Proof.Machine

theorem decodeTile_getElem (chunk : Vector Byte 16) (y x : Nat) (hy : y < 8) (hx : x < 8) :
    (decodeTile chunk)[y][x] = pixelIndex chunk[y] chunk[8 + y] x := by
  simp [decodeTile]

/-- One bit of a byte, as `(p >> k) & 1` gives it. -/
theorem shift_and_one (p : Byte) (k : Nat) : (p >>> k) &&& 1#8 = (BitVec.ofBool (p.getLsbD k)).setWidth 8 := by
  ext i hi
  simp only [BitVec.getElem_and, BitVec.getElem_ushiftRight, BitVec.getElem_setWidth, BitVec.getLsbD_ofBool,
    BitVec.getElem_one]
  by_cases h : i = 0 <;> simp [h]

/-- A colour index is the pair of its two plane bits, plane 2 the high one (R66). -/
theorem pixelIndex_eq_append (p1 p2 : Byte) (x : Nat) :
    pixelIndex p1 p2 x = BitVec.ofBool (p2.getLsbD (7 - x)) ++ BitVec.ofBool (p1.getLsbD (7 - x)) := by
  unfold pixelIndex
  rw [shift_and_one, shift_and_one]
  cases p1.getLsbD (7 - x) <;> cases p2.getLsbD (7 - x) <;> rfl

theorem pixelIndex_toNat (p1 p2 : Byte) (x : Nat) :
    (pixelIndex p1 p2 x).toNat = (p1.getLsbD (7 - x)).toNat + 2 * (p2.getLsbD (7 - x)).toNat := by
  rw [pixelIndex_eq_append]
  cases p1.getLsbD (7 - x) <;> cases p2.getLsbD (7 - x) <;> rfl

/-- A list of at least 16 bytes has a first chunk. -/
theorem exists_chunk {region : List Byte} (h : 16 ≤ region.length) :
    ∃ b0 b1 b2 b3 b4 b5 b6 b7 b8 b9 b10 b11 b12 b13 b14 b15 rest,
      region = b0 :: b1 :: b2 :: b3 :: b4 :: b5 :: b6 :: b7 :: b8 :: b9 :: b10 :: b11 :: b12 :: b13 :: b14 :: b15 :: rest := by
  iterate 16
    rcases region with _ | ⟨_, region⟩
    · simp at h
  exact ⟨_, _, _, _, _, _, _, _, _, _, _, _, _, _, _, _, _, rfl⟩

/-- The number of tiles: the region's length divided by 16, truncating (R103). -/
theorem decodeAll_length (region : List Byte) : (decodeAll region).length = region.length / 16 := by
  induction region using decodeAll.induct with
  | case1 b0 b1 b2 b3 b4 b5 b6 b7 b8 b9 b10 b11 b12 b13 b14 b15 rest ih =>
    rw [decodeAll]
    simp only [List.length_cons, ih]
    omega
  | case2 region hnot =>
    have hlt : region.length < 16 := by
      by_contra hge
      obtain ⟨b0, b1, b2, b3, b4, b5, b6, b7, b8, b9, b10, b11, b12, b13, b14, b15, rest, he⟩ := exists_chunk (not_lt.1 hge)
      exact hnot _ _ _ _ _ _ _ _ _ _ _ _ _ _ _ _ _ he
    rw [decodeAll.eq_2 region hnot, Nat.div_eq_of_lt hlt]
    rfl

/-- Tile `i` is the tile of the region's bytes from `16*i` on (R103). -/
theorem decodeAll_getElem? (region : List Byte) (i : Nat) (chunk : Vector Byte 16)
    (h : ∀ k (hk : k < 16), region[16 * i + k]? = some chunk[k]) :
    (decodeAll region)[i]? = some (decodeTile chunk) := by
  induction region using decodeAll.induct generalizing i with
  | case1 b0 b1 b2 b3 b4 b5 b6 b7 b8 b9 b10 b11 b12 b13 b14 b15 rest ih =>
    rw [decodeAll]
    cases i with
    | zero =>
      simp only [List.getElem?_cons_zero, Option.some.injEq]
      congr 1
      refine Vector.ext fun k hk => ?_
      have hk' := h k hk
      simp only [Nat.mul_zero, Nat.zero_add] at hk'
      interval_cases k <;> simpa using hk'
    | succ i =>
      rw [List.getElem?_cons_succ]
      refine ih i fun k hk => ?_
      rw [← h k hk]
      have : 16 * (i + 1) + k = 16 * i + k + 16 := by omega
      rw [this]
      simp only [List.getElem?_cons_succ]
  | case2 region hnot =>
    exfalso
    have h15 := h 15 (by omega)
    have hge : 16 ≤ region.length := by
      have := (List.getElem?_eq_some_iff.1 h15).1
      omega
    obtain ⟨b0, b1, b2, b3, b4, b5, b6, b7, b8, b9, b10, b11, b12, b13, b14, b15, rest, he⟩ := exists_chunk hge
    exact hnot _ _ _ _ _ _ _ _ _ _ _ _ _ _ _ _ _ he

end Sys2Proof.Machine
end

