-- ==== Sys2Proof/Laws/Exec.lean ====
section
/-! SUPPORT. What each command can do: one lemma per shared operation that says every way it answers a next state. -/

namespace Sys2Proof.Machine

variable {s t : State}

/-! ## Reading the source -/

theorem srcRead_eq_some {a : Nat} {b : Byte} : srcRead s a = some b ↔ a < s.srcLen.toNat ∧ memLookup s.src a = some b := by
  unfold srcRead
  split <;> simp [*]

/-- A run of source bytes has the length asked for. -/
theorem srcRun_length {a n : Nat} {bytes : List Byte} (h : srcRun s a n = some bytes) : bytes.length = n := by
  unfold srcRun at h
  split at h
  · exact memRun_length h
  · cases h

/-- A run of source bytes is the bytes that `MemRead` gives one by one. -/
theorem srcRun_eq_some (hwf : Memory.wf s.src = true) {a n : Nat} (hle : a + n ≤ s.srcLen.toNat) {bytes : List Byte} :
    srcRun s a n = some bytes ↔ bytes.length = n ∧ ∀ k < n, srcRead s (a + k) = bytes[k]? := by
  unfold srcRun
  rw [if_pos hle, memRun_eq_some hwf]
  refine and_congr_right fun _ => forall₂_congr fun k hk => ?_
  have : a + k < s.srcLen.toNat := by omega
  simp [srcRead, this]

/-- A run of source bytes can be read exactly when each of its bytes has been written. -/
theorem srcRun_isSome (hwf : Memory.wf s.src = true) {a n : Nat} (hle : a + n ≤ s.srcLen.toNat) :
    (srcRun s a n).isSome = true ↔ ∀ k < n, (srcRead s (a + k)).isSome = true := by
  unfold srcRun
  rw [if_pos hle, memRun_isSome hwf]
  refine forall₂_congr fun k hk => ?_
  have : a + k < s.srcLen.toNat := by omega
  simp [srcRead, this]

/-! ## PARSE -/

theorem locateRegion_truncated {len : Nat} {h : Header} (hlt : len < chrEndOf h.prg h.chr) :
    locateRegion len h = .failed .truncatedInput :=
  if_pos hlt

theorem locateRegion_parsed {len : Nat} {h : Header} (hle : chrEndOf h.prg h.chr ≤ len) :
    locateRegion len h = .parsed h (chrStartOf h.prg) (chrEndOf h.prg h.chr) :=
  if_neg (not_lt.2 hle)

theorem magicMatches_eq_true {m0 m1 m2 m3 : Byte} :
    magicMatches m0 m1 m2 m3 = true ↔ m0 = 0x4E#8 ∧ m1 = 0x45#8 ∧ m2 = 0x53#8 ∧ m3 = 0x1A#8 := by
  simp [magicMatches, and_assoc]

theorem parseSource_short (h : s.srcLen.toNat < 16) : parseSource s = some (.failed .truncatedInput) := by
  simp [parseSource, Config.hdrLen, h]

theorem parseSource_magic (h : 16 ≤ s.srcLen.toNat) {m0 m1 m2 m3 : Byte} (h0 : srcRead s 0 = some m0)
    (h1 : srcRead s 1 = some m1) (h2 : srcRead s 2 = some m2) (h3 : srcRead s 3 = some m3)
    (hm : magicMatches m0 m1 m2 m3 = false) : parseSource s = some (.failed .formatError) := by
  simp [parseSource, Config.hdrLen, not_lt.2 h, h0, h1, h2, h3, hm]

theorem parseSource_region (h : 16 ≤ s.srcLen.toNat) {m0 m1 m2 m3 prg chr : Byte} (h0 : srcRead s 0 = some m0)
    (h1 : srcRead s 1 = some m1) (h2 : srcRead s 2 = some m2) (h3 : srcRead s 3 = some m3) (h4 : srcRead s 4 = some prg)
    (h5 : srcRead s 5 = some chr) (hm : magicMatches m0 m1 m2 m3 = true) :
    parseSource s = some (locateRegion s.srcLen.toNat ⟨m0, m1, m2, m3, prg, chr⟩) := by
  simp [parseSource, Config.hdrLen, not_lt.2 h, h0, h1, h2, h3, h4, h5, hm]

/-- Every way the source can be parsed: too short, wrong magic, or a header with the magic, whose region decides. -/
theorem parseSource_cases {r : ParseResult} (hp : parseSource s = some r) :
    (s.srcLen.toNat < 16 ∧ r = .failed .truncatedInput) ∨
    (16 ≤ s.srcLen.toNat ∧ ∃ m0 m1 m2 m3, srcRead s 0 = some m0 ∧ srcRead s 1 = some m1 ∧ srcRead s 2 = some m2 ∧
      srcRead s 3 = some m3 ∧ magicMatches m0 m1 m2 m3 = false ∧ r = .failed .formatError) ∨
    (16 ≤ s.srcLen.toNat ∧ ∃ m0 m1 m2 m3 prg chr, srcRead s 0 = some m0 ∧ srcRead s 1 = some m1 ∧ srcRead s 2 = some m2 ∧
      srcRead s 3 = some m3 ∧ srcRead s 4 = some prg ∧ srcRead s 5 = some chr ∧ magicMatches m0 m1 m2 m3 = true ∧
      r = locateRegion s.srcLen.toNat ⟨m0, m1, m2, m3, prg, chr⟩) := by
  by_cases hs : s.srcLen.toNat < 16
  · rw [parseSource_short hs, Option.some.injEq] at hp
    exact .inl ⟨hs, hp.symm⟩
  · right
    have hge := not_lt.1 hs
    cases h0 : srcRead s 0 with
    | none => simp [parseSource, Config.hdrLen, hs, h0] at hp
    | some m0 =>
    cases h1 : srcRead s 1 with
    | none => simp [parseSource, Config.hdrLen, hs, h0, h1] at hp
    | some m1 =>
    cases h2 : srcRead s 2 with
    | none => simp [parseSource, Config.hdrLen, hs, h0, h1, h2] at hp
    | some m2 =>
    cases h3 : srcRead s 3 with
    | none => simp [parseSource, Config.hdrLen, hs, h0, h1, h2, h3] at hp
    | some m3 =>
    cases hm : magicMatches m0 m1 m2 m3 with
    | false =>
      rw [parseSource_magic hge h0 h1 h2 h3 hm, Option.some.injEq] at hp
      exact .inl ⟨hge, m0, m1, m2, m3, rfl, rfl, rfl, rfl, hm, hp.symm⟩
    | true =>
    cases h4 : srcRead s 4 with
    | none => simp [parseSource, Config.hdrLen, hs, h0, h1, h2, h3, hm, h4] at hp
    | some prg =>
    cases h5 : srcRead s 5 with
    | none => simp [parseSource, Config.hdrLen, hs, h0, h1, h2, h3, hm, h4, h5] at hp
    | some chr =>
      rw [parseSource_region hge h0 h1 h2 h3 h4 h5 hm, Option.some.injEq] at hp
      exact .inr ⟨hge, m0, m1, m2, m3, prg, chr, rfl, rfl, rfl, rfl, rfl, rfl, hm, hp.symm⟩

/-- What a successful parse says of the source. -/
theorem parseSource_parsed {h : Header} {a b : Nat} (hp : parseSource s = some (.parsed h a b)) :
    16 ≤ s.srcLen.toNat ∧ srcRead s 0 = some h.magic0 ∧ srcRead s 1 = some h.magic1 ∧ srcRead s 2 = some h.magic2 ∧
      srcRead s 3 = some h.magic3 ∧ srcRead s 4 = some h.prg ∧ srcRead s 5 = some h.chr ∧
      magicMatches h.magic0 h.magic1 h.magic2 h.magic3 = true ∧ a = chrStartOf h.prg ∧ b = chrEndOf h.prg h.chr ∧
      b ≤ s.srcLen.toNat := by
  rcases parseSource_cases hp with ⟨-, hr⟩ | ⟨-, m0, m1, m2, m3, -, -, -, -, -, hr⟩ |
    ⟨hge, m0, m1, m2, m3, prg, chr, h0, h1, h2, h3, h4, h5, hm, hr⟩
  · cases hr
  · cases hr
  · unfold locateRegion at hr
    split at hr
    · cases hr
    · rename_i hlt
      cases hr
      exact ⟨hge, h0, h1, h2, h3, h4, h5, hm, rfl, rfl, not_lt.1 hlt⟩

/-- Every way PARSE, or the PARSE stage of RUN, answers a next state: it raises an exception, or it succeeds. -/
theorem parseStage_cases {site : RaiseSite} (h : parseStage site s = .next t) :
    (∃ e, parseSource s = some (.failed e) ∧ t = raise site e s) ∨
    (∃ hd a b, parseSource s = some (.parsed hd a b) ∧ t = s.setParsed hd a b) := by
  unfold parseStage at h
  split at h
  · cases h
  · rename_i e he
    cases h
    exact .inl ⟨e, he, rfl⟩
  · rename_i hd a b he
    cases h
    exact .inr ⟨hd, a, b, he, rfl⟩

/-! ## DECODE_ALL -/

theorem descriptorInBounds_eq_true :
    descriptorInBounds s = true ↔ s.chrStart.toNat ≤ s.chrEnd.toNat ∧ s.chrEnd.toNat ≤ s.srcLen.toNat := by
  simp [descriptorInBounds]

theorem descriptorInBounds_eq_false :
    descriptorInBounds s = false ↔ ¬ (s.chrStart.toNat ≤ s.chrEnd.toNat ∧ s.chrEnd.toNat ≤ s.srcLen.toNat) := by
  rw [← descriptorInBounds_eq_true, Bool.not_eq_true]

/-- The bytes DECODE_ALL reads lie in the buffer. -/
theorem region_in_bounds (h : s.chrStart.toNat ≤ s.chrEnd.toNat ∧ s.chrEnd.toNat ≤ s.srcLen.toNat) :
    s.chrStart.toNat + 16 * ((s.chrEnd.toNat - s.chrStart.toNat) / 16) ≤ s.srcLen.toNat := by
  omega

/-- Every way DECODE_ALL answers a next state: it raises an exception, or it replaces the tile store. -/
theorem decodeStage_cases (h : decodeStage s = .next t) :
    (descriptorInBounds s = false ∧ t = raise .decodeAll .truncatedInput s) ∨
    (descriptorInBounds s = true ∧ ∃ region, srcRun s s.chrStart.toNat (Config.tileBytes * regionTiles s) = some region ∧
      t = (s.setTiles (decodeAll region)).setErr .none) := by
  unfold decodeStage at h
  split at h
  · rename_i hb
    cases h
    exact .inl ⟨hb, rfl⟩
  · rename_i hb
    split at h
    · cases h
    · rename_i region hr
      cases h
      exact .inr ⟨by simpa using hb, region, hr, rfl⟩

/-! ## COMPOSE and RUN -/

/-- COMPOSE answers a next state only with `TPR` not 0. -/
theorem composeStage_cases (h : composeStage s = .next t) : s.tpr ≠ 0#16 ∧ t = s.setComposed := by
  unfold composeStage at h
  split at h
  · cases h
  · rename_i hz
    cases h
    exact ⟨hz, rfl⟩

/-- Every way RUN answers a next state: its PARSE stage raises an exception, or all three stages succeed. -/
theorem execRun_cases (h : execRun s = .next t) :
    s.tpr ≠ 0#16 ∧
    ((∃ e, parseSource s = some (.failed e) ∧ t = raise .run e s) ∨
     (∃ hd a b u, parseSource s = some (.parsed hd a b) ∧ decodeStage (s.setParsed hd a b) = .next u ∧
       u.tpr ≠ 0#16 ∧ t = u.setComposed)) := by
  unfold execRun at h
  split at h
  · cases h
  · rename_i hz
    refine ⟨hz, ?_⟩
    cases hp : parseStage .run s with
    | fault f => simp [hp, andThen] at h
    | refused r => simp [hp, andThen] at h
    | next s1 =>
      simp only [hp, andThen] at h
      rcases parseStage_cases hp with ⟨e, he, rfl⟩ | ⟨hd, a, b, he, rfl⟩
      · have hne : (raise .run e s).err ≠ .none := by cases e <;> simp [raise, errOf]
        simp only [hne, if_false] at h
        cases h
        exact .inl ⟨e, he, rfl⟩
      · have heq : (s.setParsed hd a b).err = .none := rfl
        simp only [heq, if_true] at h
        cases hd' : decodeStage (s.setParsed hd a b) with
        | fault f => simp [hd'] at h
        | refused r => simp [hd'] at h
        | next u =>
          simp only [hd'] at h
          obtain ⟨hu, rfl⟩ := composeStage_cases h
          exact .inr ⟨hd, a, b, u, he, hd', hu, rfl⟩

/-- RUN whose PARSE stage reads an unwritten byte is refused. -/
theorem execRun_of_unwritten (ht : s.tpr ≠ 0#16) (hp : parseSource s = none) : execRun s = .refused .sourceByteUnwritten := by
  simp [execRun, ht, parseStage, hp, andThen]

/-- RUN whose PARSE stage raises an exception ends with it. -/
theorem execRun_of_failed (ht : s.tpr ≠ 0#16) {e : DecodeError} (hp : parseSource s = some (.failed e)) :
    execRun s = .next (raise .run e s) := by
  have he : (raise .run e s).err ≠ .none := by cases e <;> simp [raise, errOf]
  simp [execRun, ht, parseStage, hp, andThen, he]

/-- RUN whose PARSE stage succeeds is its later two stages, refusals included. -/
theorem execRun_of_parsed (ht : s.tpr ≠ 0#16) {h : Header} {a b : Nat} (hp : parseSource s = some (.parsed h a b)) :
    execRun s = andThen (decodeStage (s.setParsed h a b)) composeStage := by
  have he : (s.setParsed h a b).err = .none := rfl
  simp [execRun, ht, parseStage, hp, andThen, he]

end Sys2Proof.Machine
end

