-- ==== Sys2Proof/Laws/Host.lean ====
section
/-! SUPPORT. What the host's actions can do: one lemma per shared operation. -/

namespace Sys2Proof.Machine

variable {s t : State}

/-! ## What each line of the script performs -/

@[simp] theorem perform_cmd (code : Byte) : perform (.cmd code) s = issue code s := rfl

@[simp] theorem perform_wr (x : Loc) (v : Nat) : perform (.wr x v) s = writeLoc s x v := rfl

@[simp] theorem perform_ldSrc (bytes : List Byte) : perform (.ldSrc bytes) s = hostLdSrc bytes s := rfl

@[simp] theorem perform_ldChunk (bytes : List Byte) : perform (.ldChunk bytes) s = hostLdChunk bytes s := rfl

@[simp] theorem perform_rd (x : Loc) : perform (.rd x) s = hostRd x s := rfl

@[simp] theorem perform_rdCmd : perform .rdCmd s = .refused .commandPortRead := rfl

@[simp] theorem perform_reset : perform .reset s = hostReset s := rfl

/-! ## Writes of input state -/

theorem valueFits_eq_true {x : Loc} {v : Nat} : valueFits x v = true ↔ v < 2 ^ locWidth x := by
  simp [valueFits]

theorem writeLoc_fits {x : Loc} {v : Nat} (hw : locWritable x = true) (hv : v < 2 ^ locWidth x) :
    writeLoc s x v = writeInput s v x := by
  unfold writeLoc
  rw [valueFits_eq_true.2 hv, hw]
  rfl

theorem writeLoc_tooWide {x : Loc} {v : Nat} (hw : locWritable x = true) (hv : 2 ^ locWidth x ≤ v) :
    writeLoc s x v = .refused (.hostValueTooWide x v) := by
  have : valueFits x v = false := by
    rw [← Bool.not_eq_true, valueFits_eq_true]
    exact not_lt.2 hv
  unfold writeLoc
  rw [this, hw]
  rfl

theorem writeLoc_readOnly {x : Loc} {v : Nat} (hw : locWritable x = false) :
    writeLoc s x v = .refused (.hostWriteReadOnly x) := by
  unfold writeLoc
  rw [hw]
  rfl

/-- A write answers a next state only for input state and a value that fits. -/
theorem writeLoc_cases {x : Loc} {v : Nat} (h : writeLoc s x v = .next t) :
    locWritable x = true ∧ v < 2 ^ locWidth x ∧ writeInput s v x = .next t := by
  cases hw : locWritable x with
  | false =>
    rw [writeLoc_readOnly hw] at h
    cases h
  | true =>
    by_cases hv : v < 2 ^ locWidth x
    · exact ⟨rfl, hv, writeLoc_fits hw hv ▸ h⟩
    · rw [writeLoc_tooWide hw (not_lt.1 hv)] at h
      cases h

/-- A byte of a resized source: kept below the new length, no value from there on (R14). -/
theorem srcRead_resizeSource (hwf : Memory.wf s.src = true) {n : Nat} (hn : n < 2 ^ 32) (a : Nat) :
    srcRead (s.resizeSource n) a = if a < n then srcRead s a else none := by
  have hlen : (BitVec.ofNat 32 n).toNat = n := by
    simp only [BitVec.toNat_ofNat]
    omega
  simp only [srcRead, State.resizeSource, State.setSource_srcLen, State.setSource_src, hlen, memLookup_memTruncate hwf]
  by_cases h1 : a < n <;> by_cases h2 : a < s.srcLen.toNat <;> simp [h1, h2]

/-- A byte of the source after `WR SRC[a], v`. -/
theorem srcRead_memWrite (hwf : Memory.wf s.src = true) {a : Nat} (ha : a < s.srcLen.toNat) (v : Byte) (b : Nat) :
    srcRead (s.setSource (memWrite s.src a v) s.srcLen) b = if b = a then some v else srcRead s b := by
  simp only [srcRead, State.setSource_srcLen, State.setSource_src, memLookup_memWrite hwf]
  by_cases hb : b = a
  · simp [hb, ha]
  · simp [hb]

/-- A byte of the source after `LDSRC`. -/
theorem srcRead_memOfBytes {bytes : List Byte} (hn : bytes.length < 2 ^ 32) (k : Nat) :
    srcRead (s.setSource (memOfBytes 0 bytes) (BitVec.ofNat 32 bytes.length)) k = bytes[k]? := by
  have hlen : (BitVec.ofNat 32 bytes.length).toNat = bytes.length := by
    simp only [BitVec.toNat_ofNat]
    omega
  simp only [srcRead, State.setSource_srcLen, State.setSource_src, hlen, memLookup_memOfBytes]
  by_cases hk : k < bytes.length <;> simp [hk]

/-! ## Reads -/

/-- A cell of a tile within its eight rows and columns is found. -/
theorem tileCell_getElem (t : Tile) {y x : Nat} (hy : y < 8) (hx : x < 8) : tileCell t y x = some t[y][x] := by
  simp [tileCell, hy, hx]

/-- No other cell of a tile is found. -/
theorem tileCell_eq_none (t : Tile) {y x : Nat} (h : 8 ≤ y ∨ 8 ≤ x) : tileCell t y x = none := by
  by_cases hy : y < 8
  · simp [tileCell, hy, h.resolve_left (not_le.2 hy)]
  · simp [tileCell, not_lt.1 hy]

/-! ## The step -/

/-- A step either waits, with no line left, or performs the first line on the state with that line taken. -/
theorem step_cases (h : step s = .next t) :
    (s.script = [] ∧ t = s) ∨
    (∃ a rest, s.script = a :: rest ∧ perform a (s.setHost rest s.reads) = .next t) := by
  unfold step nextAction at h
  cases hs : s.script with
  | nil =>
    rw [hs] at h
    cases h
    exact .inl ⟨rfl, rfl⟩
  | cons a rest =>
    rw [hs] at h
    exact .inr ⟨a, rest, rfl, h⟩

/-- A command that answers a next state was decoded, and its meaning gave that state. -/
theorem issue_cases {code : Byte} (h : issue code s = .next t) : ∃ i, decode code = .instr i ∧ exec i s = .next t := by
  unfold issue at h
  split at h
  · rename_i i hd
    exact ⟨i, hd, h⟩
  · cases h

end Sys2Proof.Machine
end

