-- ==== Sys2Proof/Laws/PerInstr.lean ====
section
/-! SUPPORT. Statements made per command. -/

namespace Sys2Proof.Laws.Encoding

/-- A well-formed command is decoded from the byte the encoder gives it, and that byte is no reserved code. -/
def Statement (i : Instr) : Prop :=
  i.wellFormed = true → decode (encode i) = .instr i ∧ 1 ≤ (encode i).toNat ∧ (encode i).toNat ≤ 6

theorem parse : Statement .parse := fun _ => by decide

theorem decodeAll : Statement .decodeAll := fun _ => by decide

theorem decodeTile : Statement .decodeTile := fun _ => by decide

theorem compose : Statement .compose := fun _ => by decide

theorem mapColor : Statement .mapColor := fun _ => by decide

theorem run : Statement .run := fun _ => by decide

end Sys2Proof.Laws.Encoding
end

