-- ==== Sys2Proof/Tests/Slice0.lean ====
section
/-! SUPPORT. Tests. Expected results are those of spec/95_test_vectors.md (the vector is named) or of the rule named, worked out
by hand. After the tests, the witnesses: for each statement with hypotheses, a state and operands that meet them together. -/

namespace Sys2Proof.Tests

open Sys2Proof Sys2Proof.Machine Sys2Proof.Claims

/-! ## Small states -/

/-- A 16-byte header with last magic byte `m3` and counts `prg`, `chr`. -/
def header (m3 prg chr : Byte) : List Byte :=
  [0x4E#8, 0x45#8, 0x53#8, m3, prg, chr] ++ List.replicate 10 0#8

/-- The reset state with `bytes` written from address 0, `SRC_LEN = len` and `TPR = t`. -/
def loaded (bytes : List Byte) (len t : Nat) : State :=
  { State.reset with src := memOfBytes 0 bytes, srcLen := BitVec.ofNat 32 len, tpr := BitVec.ofNat 16 t }

/-- `loaded` with a host-written descriptor. -/
def windowed (bytes : List Byte) (len s e : Nat) : State :=
  { loaded bytes len 3 with chrStart := BitVec.ofNat 32 s, chrEnd := BitVec.ofNat 32 e }

/-- A tile with every cell `v`. -/
def flat (v : ColourIndex) : Tile :=
  Vector.replicate 8 (Vector.replicate 8 v)

/-- The reset state with a tile store and `TPR = t`. -/
def tiled (tiles : List Tile) (t : Nat) : State :=
  { State.reset with tile := tiles, tileCount := BitVec.ofNat 32 tiles.length, tpr := BitVec.ofNat 16 t }

/-- What `f` sees of the next state, if there is one. -/
def see {α : Type} (r : Result) (f : State → α) : Option α :=
  match r with
  | .next s => some (f s)
  | _ => none

/-- The refusal, if the outcome is one. -/
def refusal (r : Result) : Option Refusal :=
  match r with
  | .refused e => some e
  | _ => none

/-- The registers that the PARSE vectors list: `ERR`, `PRG`, `CHR`, `CHR_START`, `CHR_END`, `MAGIC0`, `MAGIC3`. -/
def parseView (s : State) : ErrCode × List Nat :=
  (s.err, [s.prg.toNat, s.chr.toNat, s.chrStart.toNat, s.chrEnd.toNat, s.magic0.toNat, s.magic3.toNat])

/-- The tile of vector T-10, the document's example S5. -/
def chunkT10 : Vector Byte 16 :=
  #v[0xF8#8, 0xF8#8, 0xF8#8, 0xF8#8, 0xF8#8, 0x00#8, 0x00#8, 0x00#8, 0x00#8, 0x00#8, 0x00#8, 0x1F#8, 0x1F#8, 0x1F#8, 0x1F#8, 0x1F#8]

/-- The chunk of vector T-13. -/
def chunkT13 : Vector Byte 16 :=
  #v[0x01#8, 0x02#8, 0x03#8, 0x04#8, 0x05#8, 0x06#8, 0x07#8, 0x08#8, 0x09#8, 0x0A#8, 0x0B#8, 0x0C#8, 0x0D#8, 0x0E#8, 0x0F#8, 0x10#8]

/-! ## Decoding: words written out bit by bit from R67 and R68 -/

theorem test_decode_parse : decode 0b00000001#8 = .instr .parse := by decide

theorem test_decode_decodeAll : decode 0b00000010#8 = .instr .decodeAll := by decide

theorem test_decode_decodeTile : decode 0b00000011#8 = .instr .decodeTile := by decide

theorem test_decode_compose : decode 0b00000100#8 = .instr .compose := by decide

theorem test_decode_mapColor : decode 0b00000101#8 = .instr .mapColor := by decide

theorem test_decode_run : decode 0b00000110#8 = .instr .run := by decide

/-- Z-06: 00, 07 and FF are refused. -/
theorem test_decode_reserved :
    decode 0x00#8 = .reserved 0x00#8 ∧ decode 0x07#8 = .reserved 0x07#8 ∧ decode 0xFF#8 = .reserved 0xFF#8 := by decide

theorem test_decodeTableWord : decodeTableWord 8 6 = some .run ∧ decodeTableWord 8 7 = none := by decide

/-- No byte matches two rows of the operation map. -/
theorem test_opcodeTable_unambiguous :
    opcodeTable.Pairwise (fun a b => a.pattern &&& (a.mask &&& b.mask) ≠ b.pattern &&& (a.mask &&& b.mask)) := by decide

theorem test_step_runs_the_offered_command :
    see (step (State.reset.withFetchWord 8 1)) (fun t => (t.err, t.script)) = some (.truncatedInput, []) := by decide

/-! ## Well-formedness: an ill-formed action for each check -/

theorem test_wellFormed_refuses_chunk_index : (HostAction.wr (.chunk 16) 0).wellFormed = false := by decide

theorem test_wellFormed_refuses_output_write : (HostAction.wr .err 0).wellFormed = false := by decide

theorem test_wellFormed_refuses_wide_value : (HostAction.wr .tpr 65536).wellFormed = false := by decide

theorem test_wellFormed_refuses_short_chunk : (HostAction.ldChunk [0#8]).wellFormed = false := by decide

theorem test_wellFormed_refuses_pixel_index :
    (HostAction.rd (.pix 8 0)).wellFormed = false ∧ (HostAction.rd (.tile 0 0 8)).wellFormed = false := by decide

theorem test_wellFormed_refuses_command_read : HostAction.rdCmd.wellFormed = false := by decide

theorem test_wellFormed_accepts :
    (HostAction.wr (.chunk 15) 255).wellFormed = true ∧ (HostAction.wr .tpr 65535).wellFormed = true ∧
    (HostAction.ldSrc [0#8]).wellFormed = true ∧ Instr.run.wellFormed = true := by decide

/-! ## PARSE -/

/-- P-02, P-04, P-06, P-08: the failures, in the order of the checks. -/
theorem test_parse_failures :
    see (execParse (loaded (header 0x1A#8 0#8 0#8) 15 1)) parseView = some (.truncatedInput, [0, 0, 0, 0, 0, 0]) ∧
    see (execParse (loaded (header 0x1B#8 0#8 0#8) 16 1)) parseView = some (.formatError, [0, 0, 0, 0, 0, 0]) ∧
    see (execParse (loaded (header 0x1A#8 0#8 1#8) 16 1)) parseView = some (.truncatedInput, [0, 0, 0, 0, 0, 0]) ∧
    see (execParse (loaded (header 0x00#8 0#8 1#8) 16 1)) parseView = some (.formatError, [0, 0, 0, 0, 0, 0]) := by decide

/-- P-03, P-09, P-10, P-12, P-19: successes, and one byte short (PARSE reads only the header's six bytes, R84). -/
theorem test_parse_offsets :
    see (execParse (loaded (header 0x1A#8 0#8 0#8) 16 1)) parseView = some (.none, [0, 0, 16, 16, 0x4E, 0x1A]) ∧
    see (execParse (loaded (header 0x1A#8 0#8 1#8) 8208 1)) parseView = some (.none, [0, 1, 16, 8208, 0x4E, 0x1A]) ∧
    see (execParse (loaded (header 0x1A#8 0#8 1#8) 8207 1)) parseView = some (.truncatedInput, [0, 0, 0, 0, 0, 0]) ∧
    see (execParse (loaded (header 0x1A#8 1#8 1#8) 24592 1)) parseView = some (.none, [1, 1, 16400, 24592, 0x4E, 0x1A]) ∧
    see (execParse (loaded (header 0x1A#8 255#8 255#8) 6266896 1)) parseView =
      some (.none, [255, 255, 4177936, 6266896, 0x4E, 0x1A]) := by decide

/-! ## DECODE_TILE -/

/-- T-10: the document's example S5, rows 0, 3 and 7. -/
theorem test_decodeTile_document_example :
    see (execDecodeTile { State.reset with chunk := chunkT10 }) (fun t => (t.pix[0], t.pix[3], t.pix[7])) =
      some (#v[1#2, 1#2, 1#2, 1#2, 1#2, 0#2, 0#2, 0#2], #v[1#2, 1#2, 1#2, 3#2, 3#2, 2#2, 2#2, 2#2],
        #v[0#2, 0#2, 0#2, 2#2, 2#2, 2#2, 2#2, 2#2]) := by decide

/-- T-13, row 7 of G-13: the two planes and both bit ends. -/
theorem test_decodeTile_planes :
    see (execDecodeTile { State.reset with chunk := chunkT13 }) (fun t => (t.pix[7], t.pix[0])) =
      some (#v[0#2, 0#2, 0#2, 2#2, 1#2, 0#2, 0#2, 0#2], #v[0#2, 0#2, 0#2, 0#2, 2#2, 0#2, 0#2, 3#2]) := by decide

/-! ## DECODE_ALL -/

/-- The 35 bytes of program 3. -/
def program3 : List Byte :=
  [0xAA#8, 0x41#8, 0xC2#8, 0x44#8, 0x48#8, 0x10#8, 0x20#8, 0x40#8, 0x80#8, 0x01#8, 0x02#8, 0x04#8, 0x08#8, 0x16#8, 0x21#8,
    0x42#8, 0x87#8, 0x01#8, 0x02#8, 0x04#8, 0x08#8, 0x10#8, 0x20#8, 0x40#8, 0x80#8, 0x80#8, 0x40#8, 0x20#8, 0x10#8, 0x08#8,
    0x04#8, 0x02#8, 0x01#8, 0xFF#8, 0xFF#8]

/-- Program 3 and A-13: the window from 1 gives G-11 and G-12; the window from 0 gives another tile 0. -/
theorem test_decodeAll_window :
    see (execDecodeAll (windowed program3 35 1 35)) (fun t => (t.err, t.tileCount.toNat, t.tile.map (fun g => g[0]))) =
      some (.none, 2, [#v[0#2, 1#2, 0#2, 0#2, 0#2, 0#2, 0#2, 3#2], #v[2#2, 0#2, 0#2, 0#2, 0#2, 0#2, 0#2, 1#2]]) ∧
    see (execDecodeAll (windowed program3 35 0 35)) (fun t => (t.tile.map (fun g => g[0])).head?) =
      some (some #v[3#2, 0#2, 1#2, 0#2, 1#2, 0#2, 1#2, 0#2]) := by decide

/-- A-04, A-07, A-09, A-10: counts and bounds; A-09 and A-10 keep the descriptor. -/
theorem test_decodeAll_counts :
    see (execDecodeAll (windowed (List.replicate 64 0#8) 64 0 17)) (fun t => (t.err, t.tileCount.toNat)) = some (.none, 1) ∧
    see (execDecodeAll (windowed (List.replicate 64 0#8) 64 5 64)) (fun t => (t.err, t.tileCount.toNat)) = some (.none, 3) ∧
    see (execDecodeAll (windowed (List.replicate 64 0#8) 64 0 65)) (fun t => (t.err, t.tileCount.toNat, t.chrEnd.toNat)) =
      some (.truncatedInput, 0, 65) ∧
    see (execDecodeAll (windowed (List.replicate 64 0#8) 64 40 32)) (fun t => (t.err, t.tileCount.toNat, t.chrEnd.toNat)) =
      some (.truncatedInput, 0, 32) := by decide

/-! ## MAPCOLOR -/

/-- M-02 to M-07. -/
theorem test_mapColor_vectors :
    [1, 2, 3, 4, 7, 255].map (fun v => see (execMapColor { State.reset with cidx := BitVec.ofNat 8 v }) (·.inten.toNat)) =
      [some 117, some 188, some 255, some 0, some 0, some 0] := by decide

/-! ## COMPOSE -/

/-- C-01, C-04, C-07, C-08: `ROWS`, `GRID_W`, `GRID_H`. -/
theorem test_compose_dimensions :
    [(0, 5), (10, 3), (9, 3), (2, 3)].map (fun (n, t) =>
      see (execCompose (tiled (List.replicate n (flat 0#2)) t)) (fun s => (s.rows.toNat, s.gridW.toNat, s.gridH.toNat))) =
      [some (0, 40, 0), some (4, 24, 32), some (3, 24, 24), some (1, 24, 8)] := by decide

/-- C-20: rows 3 and 15 of the sheet of T-10, T-02 and T-13 at two per row. -/
theorem test_compose_sheet :
    see (execCompose (tiled [decodeTile chunkT10, flat 3#2, decodeTile chunkT13] 2)) (fun s => (s.grid[3]?, s.grid[15]?)) =
      some (some [117#8, 117#8, 117#8, 255#8, 255#8, 188#8, 188#8, 188#8, 255#8, 255#8, 255#8, 255#8, 255#8, 255#8, 255#8, 255#8],
        some [0#8, 0#8, 0#8, 188#8, 117#8, 0#8, 0#8, 0#8, 0#8, 0#8, 0#8, 0#8, 0#8, 0#8, 0#8, 0#8]) := by decide

/-! ## RUN -/

/-- X-02 and X-04. -/
theorem test_run_vectors :
    see (execRun { tiled [flat 1#2] 50 with src := memOfBytes 0 (header 0x1B#8 0#8 0#8), srcLen := 16#32 })
      (fun t => (parseView t, t.tileCount.toNat, t.gridW.toNat, t.gridH.toNat)) =
      some ((.formatError, [0, 0, 0, 0, 0, 0]), 0, 0, 0) ∧
    see (execRun (loaded (header 0x1A#8 0#8 0#8) 16 4)) (fun t => (parseView t, t.tileCount.toNat, t.gridW.toNat, t.gridH.toNat)) =
      some ((.none, [0, 0, 16, 16, 0x4E, 0x1A]), 0, 32, 0) := by decide

/-- X-05, X-06, Z-05: refused while `TPR = 0`, before anything else. -/
theorem test_run_refused_without_tilesPerRow :
    refusal (execRun (loaded (header 0x1B#8 0#8 0#8) 16 0)) = some .tilesPerRowZero ∧
    refusal (execCompose State.reset) = some .tilesPerRowZero := by decide

/-! ## The host's actions -/

/-- Z-07 and R142: a write to `ERR` is refused, the nearest accepted is a write to `TPR`; a value too wide is refused. -/
theorem test_host_wr :
    refusal (hostWr .err 0 State.reset) = some (.hostWriteReadOnly .err) ∧
    see (hostWr .tpr 50 State.reset) (·.tpr.toNat) = some 50 ∧
    refusal (hostWr .cidx 256 State.reset) = some (.hostValueTooWide .cidx 256) ∧
    refusal (hostWr (.src 0) 7 State.reset) = some (.noSuchCell (.src 0)) := by decide

/-- R14: lowering `SRC_LEN` loses the bytes above it, and raising it again does not bring them back. -/
theorem test_host_resize :
    see (hostWr .srcLen 2 (loaded [1#8, 2#8, 3#8] 3 0)) (fun t => see (hostWr .srcLen 3 t) (fun u => (srcRead u 1, srcRead u 2))) =
      some (some (some 2#8, none)) := by decide

/-- R142: `LDSRC` and `LDCHUNK`. -/
theorem test_host_loads :
    see (hostLdSrc [7#8, 8#8] (loaded [1#8, 2#8, 3#8] 3 0)) (fun t => (t.srcLen.toNat, srcRead t 0, srcRead t 1, srcRead t 2)) =
      some (2, some 7#8, some 8#8, none) ∧
    see (hostLdChunk (chunkT13.toList) State.reset) (fun t => (t.chunk[0], t.chunk[15])) = some (1#8, 16#8) ∧
    refusal (hostLdChunk [1#8] State.reset) = some (.chunkLength 1) := by decide

/-- Z-08: with two tiles, tile 1 is read and tile 2 is refused; a byte nobody wrote gives no value. -/
theorem test_host_rd :
    see (hostRd (.tile 1 0 0) (tiled [flat 0#2, flat 3#2] 1)) (·.reads) = some [.value 3] ∧
    refusal (hostRd (.tile 2 0 0) (tiled [flat 0#2, flat 3#2] 1)) = some (.noSuchCell (.tile 2 0 0)) ∧
    see (hostRd (.src 0) (loaded [] 1 0)) (·.reads) = some [.noValue] ∧
    refusal (hostRd (.src 1) (loaded [] 1 0)) = some (.noSuchCell (.src 1)) := by decide

/-- R170: reset clears the unit. -/
theorem test_host_reset :
    see (hostReset (loaded [1#8] 1 9)) (fun t => (t.src, t.srcLen.toNat, t.tpr.toNat)) = some ([], 0, 0) := by decide

/-- Program 6, its last step: the stale descriptor raises TruncatedInput and is kept. -/
theorem test_stale_descriptor :
    see (execDecodeAll { windowed [] 8000 16 8208 with tile := [flat 0#2], tileCount := 1#32 })
      (fun t => (t.err, t.tileCount.toNat, t.chrStart.toNat, t.chrEnd.toNat)) = some (.truncatedInput, 0, 16, 8208) := by decide

/-! ## Witnesses: the hypotheses of each statement can be met together -/

/-- A 16-byte valid container with no graphics. -/
def sGood : State :=
  loaded (header 0x1A#8 0#8 0#8) 16 3

/-- The same with a wrong magic byte. -/
def sBadMagic : State :=
  loaded (header 0x1B#8 0#8 0#8) 16 3

/-- The same with a region one byte longer than the buffer allows. -/
def sTruncated : State :=
  loaded (header 0x1A#8 0#8 1#8) 8207 3

/-- The bytes of vector P-09: a header with one graphics unit, and 8192 zero bytes. -/
def fullBytes : List Byte :=
  header 0x1A#8 0#8 1#8 ++ List.replicate 8192 0#8

/-- A container whose region ends exactly at the end of the buffer. -/
def sFull : State :=
  loaded fullBytes 8208 50

/-- A state of two tiles at three per row, with the grid that COMPOSE gives for them (R122). -/
def sTiled : State :=
  { tiled [flat 1#2, flat 3#2] 3 with
    grid := List.replicate 8 (List.replicate 8 117#8 ++ List.replicate 8 255#8 ++ List.replicate 8 0#8)
    gridW := 24#32, gridH := 8#32, rows := 1#32 }

theorem fullBytes_length : fullBytes.length = 8208 := by
  have h : (header 0x1A#8 0#8 1#8).length = 16 := by decide
  rw [fullBytes, List.length_append, List.length_replicate, h]

theorem loaded_read {bytes : List Byte} {len : Nat} (hl : bytes.length = len) (hn : len < 2 ^ 32) (t k : Nat) :
    srcRead (loaded bytes len t) k = bytes[k]? := by
  subst hl
  exact srcRead_memOfBytes (s := { State.reset with tpr := BitVec.ofNat 16 t }) hn k

theorem sFull_written (k : Nat) (hk : k < 8208) : (srcRead sFull k).isSome = true := by
  rw [sFull, loaded_read fullBytes_length (by decide), List.getElem?_eq_getElem (by rw [fullBytes_length]; exact hk)]
  rfl

theorem sFull_canonical : Memory.wf sFull.src = true :=
  wf_memOfBytes _

theorem witness_EncodeDecodeAgree : ∃ i : Instr, i.wellFormed = true ∧ decode 0x06#8 = .instr i :=
  ⟨.run, by decide⟩

theorem witness_CommandCodesDecode : (0x00#8 : Byte) = 0x00#8 ∧ 7 ≤ (0x07#8 : Byte).toNat ∧ 7 ≤ (0xFF#8 : Byte).toNat := by decide

theorem witness_ReservedCodesRefused : (0x00#8 : Byte) = 0x00#8 ∧ 7 ≤ (0x07#8 : Byte).toNat := by decide

theorem witness_StepRunsTheDecodedCommand :
    (State.reset.withFetchWord 8 5).script = .cmd 0x05#8 :: [] ∧ decode 0x05#8 = .instr .mapColor ∧
    Instr.mapColor.wellFormed = true := by decide

theorem witness_StepPerformsTheNextLine : (State.reset.withFetchWord 8 5).script = .cmd 0x05#8 :: [] := by decide

theorem witness_UnitWaitsWithoutAction : State.reset.script = [] := by decide

/-- Lengths 15 and 16, each outcome. -/
theorem witness_ParseOutcomes :
    (loaded (header 0x1A#8 0#8 0#8) 15 1).srcLen.toNat < 16 ∧
    (16 ≤ sBadMagic.srcLen.toNat ∧ srcRead sBadMagic 0 = some 0x4E#8 ∧ srcRead sBadMagic 1 = some 0x45#8 ∧
      srcRead sBadMagic 2 = some 0x53#8 ∧ srcRead sBadMagic 3 = some 0x1B#8 ∧ ¬ IsMagic 0x4E#8 0x45#8 0x53#8 0x1B#8) ∧
    (16 ≤ sTruncated.srcLen.toNat ∧ srcRead sTruncated 0 = some 0x4E#8 ∧ srcRead sTruncated 1 = some 0x45#8 ∧
      srcRead sTruncated 2 = some 0x53#8 ∧ srcRead sTruncated 3 = some 0x1A#8 ∧ srcRead sTruncated 4 = some 0#8 ∧
      srcRead sTruncated 5 = some 1#8 ∧ sTruncated.srcLen.toNat < regionEnd 0#8 1#8) ∧
    (16 ≤ sGood.srcLen.toNat ∧ srcRead sGood 0 = some 0x4E#8 ∧ srcRead sGood 1 = some 0x45#8 ∧
      srcRead sGood 2 = some 0x53#8 ∧ srcRead sGood 3 = some 0x1A#8 ∧ srcRead sGood 4 = some 0#8 ∧
      srcRead sGood 5 = some 0#8 ∧ regionEnd 0#8 0#8 ≤ sGood.srcLen.toNat ∧ IsMagic 0x4E#8 0x45#8 0x53#8 0x1A#8) := by
  unfold IsMagic
  decide

theorem witness_WrongMagicIsFormatError :
    16 ≤ sBadMagic.srcLen.toNat ∧ srcRead sBadMagic 0 = some 0x4E#8 ∧ srcRead sBadMagic 1 = some 0x45#8 ∧
    srcRead sBadMagic 2 = some 0x53#8 ∧ srcRead sBadMagic 3 = some 0x1B#8 ∧
    ((0x4E#8, 0x45#8, 0x53#8, 0x1B#8) : Byte × Byte × Byte × Byte) ≠ (0x4E#8, 0x45#8, 0x53#8, 0x1A#8) := by decide

/-- 15 bytes; 16 bytes with a wrong magic; the magic with a region that does not fit; the magic with one that does. -/
theorem witness_PureParseSteps :
    ((header 0x1A#8 0#8 0#8).take 15).length < 16 ∧
    (16 ≤ (header 0x1B#8 0#8 0#8).length ∧ (header 0x1B#8 0#8 0#8).take 4 ≠ [0x4E#8, 0x45#8, 0x53#8, 0x1A#8]) ∧
    (16 ≤ (header 0x1A#8 0#8 1#8).length ∧ (header 0x1A#8 0#8 1#8).take 4 = [0x4E#8, 0x45#8, 0x53#8, 0x1A#8] ∧
      (header 0x1A#8 0#8 1#8).length < regionEnd 0#8 1#8) ∧
    (16 ≤ (header 0x1A#8 0#8 0#8).length ∧ (header 0x1A#8 0#8 0#8).take 4 = [0x4E#8, 0x45#8, 0x53#8, 0x1A#8] ∧
      regionEnd 0#8 0#8 ≤ (header 0x1A#8 0#8 0#8).length) := by decide

theorem witness_ParseRefinesPureParse :
    (header 0x1A#8 0#8 0#8).length = sGood.srcLen.toNat ∧
    ∀ a < (header 0x1A#8 0#8 0#8).length, srcRead sGood a = (header 0x1A#8 0#8 0#8)[a]? := by decide

/-- A region that ends exactly at the end of the bytes, and one that does not fit. -/
theorem witness_OffsetBounds :
    (16 ≤ (header 0x1A#8 0#8 0#8).length ∧ (header 0x1A#8 0#8 0#8).take 4 = [0x4E#8, 0x45#8, 0x53#8, 0x1A#8] ∧
      chrEndOf 0#8 0#8 = (header 0x1A#8 0#8 0#8).length ∧
      parse (header 0x1A#8 0#8 0#8) = .parsed ⟨0x4E#8, 0x45#8, 0x53#8, 0x1A#8, 0#8, 0#8⟩ 16 16) ∧
    (16 ≤ (header 0x1A#8 0#8 1#8).length ∧ (header 0x1A#8 0#8 1#8).take 4 = [0x4E#8, 0x45#8, 0x53#8, 0x1A#8] ∧
      (header 0x1A#8 0#8 1#8).length < chrEndOf 0#8 1#8) := by decide

/-- Two sources that agree on bytes 0 to 5 and differ at byte 6. -/
theorem witness_ParseReadsSixBytes :
    (∀ a < 6, memLookup (memWrite sGood.src 6 0xFF#8) a = memLookup sGood.src a) ∧
    memWrite sGood.src 6 0xFF#8 ≠ sGood.src := by decide

theorem witness_ParseIsIdempotent : ∃ t, exec .parse sGood = .next t :=
  ⟨_, rfl⟩

theorem witness_ParseFrame : (∃ t, exec .parse sGood = .next t) ∧ ∃ t, exec .parse sBadMagic = .next t :=
  ⟨⟨_, rfl⟩, ⟨_, rfl⟩⟩

/-- Byte 3 unwritten; and the magic written with byte 4, or byte 5, unwritten. -/
theorem witness_ParseRefusesUnwrittenByte :
    (16 ≤ (loaded [0x4E#8, 0x45#8, 0x53#8] 16 1).srcLen.toNat ∧ srcRead (loaded [0x4E#8, 0x45#8, 0x53#8] 16 1) 3 = none) ∧
    (srcRead (loaded [0x4E#8, 0x45#8, 0x53#8, 0x1A#8] 16 1) 3 = some 0x1A#8 ∧
      srcRead (loaded [0x4E#8, 0x45#8, 0x53#8, 0x1A#8] 16 1) 4 = none) ∧
    (srcRead (loaded [0x4E#8, 0x45#8, 0x53#8, 0x1A#8, 0#8] 16 1) 4 = some 0#8 ∧
      srcRead (loaded [0x4E#8, 0x45#8, 0x53#8, 0x1A#8, 0#8] 16 1) 5 = none) ∧
    (loaded [0x4E#8, 0x45#8, 0x53#8] 16 1).tpr ≠ 0#16 ∧ (loaded [0x4E#8, 0x45#8, 0x53#8, 0x1A#8] 16 1).tpr ≠ 0#16 := by decide

theorem witness_ColourIndexFromPlanes : (0 : Nat) < 8 ∧ 7 < 8 := by decide

theorem witness_DecodeTileIsBijective : (7 : Nat) < 8 ∧ (decodeTile chunkT10)[7][7] = 2#2 := by decide

/-- Chunks that meet each mirror's hypothesis: planes swapped, bits reversed, rows reversed. -/
theorem witness_DecodeTileMirrors :
    (∀ k (_ : k < 8),
      (#v[0#8, 0#8, 0#8, 0x1F#8, 0x1F#8, 0x1F#8, 0x1F#8, 0x1F#8, 0xF8#8, 0xF8#8, 0xF8#8, 0xF8#8, 0xF8#8, 0#8, 0#8, 0#8] :
        Vector Byte 16)[k] = chunkT10[8 + k] ∧
      (#v[0#8, 0#8, 0#8, 0x1F#8, 0x1F#8, 0x1F#8, 0x1F#8, 0x1F#8, 0xF8#8, 0xF8#8, 0xF8#8, 0xF8#8, 0xF8#8, 0#8, 0#8, 0#8] :
        Vector Byte 16)[8 + k] = chunkT10[k]) ∧
    (∀ k (_ : k < 16), ∀ j < 8,
      (#v[0x1F#8, 0x1F#8, 0x1F#8, 0x1F#8, 0x1F#8, 0#8, 0#8, 0#8, 0#8, 0#8, 0#8, 0xF8#8, 0xF8#8, 0xF8#8, 0xF8#8, 0xF8#8] :
        Vector Byte 16)[k].getLsbD j = chunkT10[k].getLsbD (7 - j)) ∧
    (∀ k (_ : k < 8),
      (#v[0#8, 0#8, 0#8, 0xF8#8, 0xF8#8, 0xF8#8, 0xF8#8, 0xF8#8, 0x1F#8, 0x1F#8, 0x1F#8, 0x1F#8, 0x1F#8, 0#8, 0#8, 0#8] :
        Vector Byte 16)[k] = chunkT10[7 - k] ∧
      (#v[0#8, 0#8, 0#8, 0xF8#8, 0xF8#8, 0xF8#8, 0xF8#8, 0xF8#8, 0x1F#8, 0x1F#8, 0x1F#8, 0x1F#8, 0x1F#8, 0#8, 0#8, 0#8] :
        Vector Byte 16)[8 + k] = chunkT10[15 - k]) := by decide

theorem witness_DecodeTileWritesPix : ∃ t, exec .decodeTile State.reset = .next t :=
  ⟨_, rfl⟩

/-- A region of 31 bytes and its one chunk; another region that differs in its remainder only; a region of 15 bytes. -/
theorem witness_PureDecodeAll :
    (0 < (chunkT10.toList ++ List.replicate 15 0#8).length / 16 ∧
      ∀ k (_ : k < 16), (chunkT10.toList ++ List.replicate 15 0#8)[16 * 0 + k]? = some chunkT10[k]) ∧
    ((chunkT10.toList ++ List.replicate 15 1#8).length = (chunkT10.toList ++ List.replicate 15 0#8).length ∧
      (chunkT10.toList ++ List.replicate 15 1#8).take 16 = (chunkT10.toList ++ List.replicate 15 0#8).take 16) ∧
    (List.replicate 15 (0#8 : Byte)).length < 16 := by decide

/-- Descriptor past the end by one; reversed; and ending exactly at the end, with a remainder of two bytes unwritten or not. -/
theorem witness_DecodeAllOutcomes :
    (Memory.wf (windowed program3 35 0 36).src = true ∧ ¬ (windowed program3 35 0 36).chrEnd.toNat ≤ 35) ∧
    (Memory.wf (windowed program3 35 2 1).src = true ∧ ¬ (windowed program3 35 2 1).chrStart.toNat ≤ 1) ∧
    (Memory.wf (windowed program3 35 1 35).src = true ∧ (windowed program3 35 1 35).chrStart.toNat ≤ 35 ∧
      (windowed program3 35 1 35).chrEnd.toNat ≤ (windowed program3 35 1 35).srcLen.toNat ∧
      regionCount (windowed program3 35 1 35) = 2 ∧ Written (windowed program3 35 1 35) 1 (16 * 2) ∧
      srcRead (windowed program3 35 1 35) (1 + 16 * 1 + 7) = some 0x80#8 ∧
      srcRead (windowed program3 35 1 35) (1 + 16 * 1 + 8 + 7) = some 0x01#8) := by
  unfold Written
  decide

/-- For DECODE_ALL only the last byte of the read set is unwritten; for RUN the header is written and the region is not. -/
theorem witness_DecodeAllRefusesUnwrittenByte :
    Memory.wf (windowed (program3.take 32) 35 1 35).src = true ∧
    (windowed (program3.take 32) 35 1 35).chrStart.toNat ≤ (windowed (program3.take 32) 35 1 35).chrEnd.toNat ∧
    (windowed (program3.take 32) 35 1 35).chrEnd.toNat ≤ (windowed (program3.take 32) 35 1 35).srcLen.toNat ∧
    ¬ Written (windowed (program3.take 32) 35 1 35) 1 (16 * 2) ∧
    Memory.wf (loaded (header 0x1A#8 0#8 1#8) 8208 1).src = true ∧ (loaded (header 0x1A#8 0#8 1#8) 8208 1).tpr ≠ 0#16 ∧
    ∃ t, exec .parse (loaded (header 0x1A#8 0#8 1#8) 8208 1) = .next t ∧ t.err = .none ∧
      ¬ Written t t.chrStart.toNat (16 * regionCount t) :=
  ⟨by decide, by decide, by decide, fun h => absurd (h 31 (by decide)) (by decide), by decide, by decide, _, rfl, by decide,
    fun h => absurd (h 0 (by decide)) (by decide)⟩

/-- Two sources that agree on the region's 32 bytes and differ on the byte after them. -/
theorem witness_DecodeAllReadsOnlyTheRegion :
    Memory.wf (windowed program3 35 1 35).src = true ∧ Memory.wf (memOfBytes 0 (program3.take 33)) = true ∧
    (∀ k < 16 * regionCount (windowed program3 35 1 35),
      memLookup (memOfBytes 0 (program3.take 33)) (1 + k) = memLookup (windowed program3 35 1 35).src (1 + k)) ∧
    memOfBytes 0 (program3.take 33) ≠ (windowed program3 35 1 35).src := by decide

/-- A PARSE that succeeds, followed by a DECODE_ALL that answers; and a PARSE that fails. -/
theorem witness_DecodeAllAfterParse :
    (∃ t u, exec .parse sGood = .next t ∧ t.err = .none ∧ exec .decodeAll t = .next u) ∧
    (∃ t, exec .parse sBadMagic = .next t ∧ t.err ≠ .none) :=
  ⟨⟨_, _, rfl, rfl, rfl⟩, ⟨_, rfl, by decide⟩⟩

theorem witness_DecodeAllFrame :
    (∃ t, exec .decodeAll (windowed program3 35 1 35) = .next t) ∧ ∃ t, exec .decodeAll (windowed program3 35 2 1) = .next t :=
  ⟨⟨_, rfl⟩, ⟨_, rfl⟩⟩

theorem witness_ColourMapTable : (4 : Nat) ≤ 4 ∧ (2 : Nat) < 3 ∧ (3 : Nat) < 4 := by decide

/-- Four tiles at three per row: a tile in the second row, and an uncovered cell beside it. -/
theorem witness_PureCompose :
    (1 : Nat) ≤ 3 ∧ (List.replicate 4 (flat 1#2)).length ≤ 2 * 3 ∧ 3 < (List.replicate 4 (flat 1#2)).length ∧
    15 < 8 * rowCount (List.replicate 4 (flat 1#2)).length 3 ∧ 8 < 8 * 3 ∧
    ∀ i < 4, ∀ y < 8, ∀ x < 8, ¬ (15 = y + i / 3 * 8 ∧ 8 = x + i % 3 * 8) := by decide

/-- Four tiles at three per row: the last tile, and the first and last uncovered cell of the last row of tiles. -/
theorem witness_TilePlacementGeometry :
    (1 : Nat) ≤ 3 ∧ (3 : Nat) < 4 ∧ (4 : Nat) % 3 ≠ 0 ∧ 8 / 8 = rowCount 4 3 - 1 ∧ 4 % 3 ≤ 8 / 8 ∧ 15 < 8 * rowCount 4 3 ∧
    23 < 8 * 3 := by decide

theorem reset_inv : State.reset.Inv where
  srcCanonical := by decide
  srcBelowLen := by decide
  srcLenWithinCap := by decide
  tileCountIsLength := by decide
  tilesWithinCap := by decide
  gridHeight := by decide
  gridWidth := by decide
  gridRows := by decide
  gridColumns := by decide
  gridSamples := by decide
  intenSample := by decide
  header := .inr (by decide)

theorem sTiled_inv : sTiled.Inv where
  srcCanonical := by decide
  srcBelowLen := by decide
  srcLenWithinCap := by decide
  tileCountIsLength := by decide
  tilesWithinCap := by decide
  gridHeight := by decide
  gridWidth := by decide
  gridRows := by decide
  gridColumns := by decide
  gridSamples := by decide
  intenSample := by decide
  header := .inr (by decide)

/-- The invariant with `TPR = 0` at reset; with `TPR = 3`, two tiles, the second's last pixel, and an uncovered cell. -/
theorem witness_ComposeOutcome :
    (State.reset.Inv ∧ State.reset.tpr = 0#16) ∧
    (sTiled.Inv ∧ sTiled.tpr ≠ 0#16 ∧ 1 < sTiled.tileCount.toNat ∧ sTiled.tile[1]? = some (flat 3#2) ∧
      ∀ i < 2, ∀ y < 8, ∀ x < 8, ¬ (7 = y + i / 3 * 8 ∧ 16 = x + i % 3 * 8)) :=
  ⟨⟨reset_inv, by decide⟩, ⟨sTiled_inv, by decide⟩⟩

theorem witness_ComposeNoTiles : (tiled [] 1).tpr ≠ 0#16 ∧ (tiled [] 1).tileCount = 0#32 := by decide

theorem witness_ZeroTilesPerRowRefused : State.reset.tpr = 0#16 := by decide

theorem witness_DirectOperationFrames :
    (∃ t, exec .decodeTile sTiled = .next t) ∧ (∃ t, exec .mapColor sTiled = .next t) ∧ ∃ t, exec .compose sTiled = .next t :=
  ⟨⟨_, rfl⟩, ⟨_, rfl⟩, ⟨_, rfl⟩⟩

theorem witness_RunFailureEmptiesOutputs : sBadMagic.tpr ≠ 0#16 ∧ ∃ t, exec .parse sBadMagic = .next t ∧ t.err ≠ .none :=
  ⟨by decide, _, rfl, by decide⟩

/-- On success all three commands answer; on failure the first does, with an error. -/
theorem witness_RunIsThePipeline :
    (sGood.tpr ≠ 0#16 ∧
      ∃ t u v, exec .parse sGood = .next t ∧ t.err = .none ∧ exec .decodeAll t = .next u ∧ exec .compose u = .next v) ∧
    (sTruncated.tpr ≠ 0#16 ∧ ∃ t, exec .parse sTruncated = .next t ∧ t.err ≠ .none) :=
  ⟨⟨by decide, _, _, _, rfl, rfl, rfl, rfl⟩, ⟨by decide, _, rfl, by decide⟩⟩

/-- The document's container: `chr = 1`, the region ending exactly at the end of the buffer, the last pixel's two bytes. -/
theorem witness_RunOnValidContainer :
    Memory.wf sFull.src = true ∧ sFull.tpr ≠ 0#16 ∧ 16 ≤ sFull.srcLen.toNat ∧ srcRead sFull 0 = some 0x4E#8 ∧
    srcRead sFull 1 = some 0x45#8 ∧ srcRead sFull 2 = some 0x53#8 ∧ srcRead sFull 3 = some 0x1A#8 ∧
    srcRead sFull 4 = some 0#8 ∧ srcRead sFull 5 = some 1#8 ∧ regionEnd 0#8 1#8 = sFull.srcLen.toNat ∧
    Written sFull (regionStart 0#8) ((1#8 : Byte).toNat * 8192) ∧
    (∃ p1, srcRead sFull (regionStart 0#8 + 16 * 511 + 7) = some p1) ∧
    (∃ p2, srcRead sFull (regionStart 0#8 + 16 * 511 + 8 + 7) = some p2) :=
  ⟨sFull_canonical, by decide, by decide, rfl, rfl, rfl, rfl, rfl, rfl, by decide,
    fun k hk => sFull_written _ (by
      have h1 : regionStart 0#8 = 16 := by decide
      have h2 : (1#8 : Byte).toNat = 1 := by decide
      omega),
    Option.isSome_iff_exists.1 (sFull_written 8199 (by omega)), Option.isSome_iff_exists.1 (sFull_written 8207 (by omega))⟩

theorem witness_RunFrame : (∃ t, exec .run sGood = .next t) ∧ ∃ t, exec .run sBadMagic = .next t :=
  ⟨⟨_, rfl⟩, ⟨_, rfl⟩⟩

/-- Each operation that raises, raising. -/
theorem witness_ExceptionEffects :
    (∃ t, t.err ≠ .none ∧ exec .parse sBadMagic = .next t) ∧ (∃ t, t.err ≠ .none ∧ exec .run sTruncated = .next t) ∧
    (∃ t, t.err ≠ .none ∧ exec .decodeAll (windowed program3 35 2 1) = .next t) :=
  ⟨⟨_, by decide, rfl⟩, ⟨_, by decide, rfl⟩, ⟨_, by decide, rfl⟩⟩

/-- 15 bytes; a wrong magic; a good magic, with and without room. -/
theorem witness_ExceptionPriority :
    (∃ t, exec .parse (loaded (header 0x1A#8 0#8 0#8) 15 1) = .next t ∧ (loaded (header 0x1A#8 0#8 0#8) 15 1).srcLen.toNat < 16) ∧
    (∃ t, exec .parse sBadMagic = .next t ∧ 16 ≤ sBadMagic.srcLen.toNat ∧ srcRead sBadMagic 3 = some 0x1B#8) ∧
    (∃ t, exec .parse sTruncated = .next t ∧ srcRead sTruncated 3 = some 0x1A#8 ∧ srcRead sTruncated 5 = some 1#8) ∧
    (∃ t, exec .parse sGood = .next t ∧ srcRead sGood 3 = some 0x1A#8 ∧ srcRead sGood 5 = some 0#8) :=
  ⟨⟨_, rfl, by decide⟩, ⟨_, rfl, by decide⟩, ⟨_, rfl, by decide⟩, ⟨_, rfl, by decide⟩⟩

theorem witness_NeverRaisingOperations : ∃ t, exec .mapColor State.reset = .next t :=
  ⟨_, rfl⟩

theorem witness_ErrWrittenByThreeOperations :
    (∃ t, perform (.cmd 0x03#8) State.reset = .next t) ∧ ∃ t, perform (.wr .tpr 1) State.reset = .next t :=
  ⟨⟨_, rfl⟩, ⟨_, rfl⟩⟩

/-- Both refusals of a command. -/
theorem witness_CommandRefusals :
    (Memory.wf State.reset.src = true ∧ exec .run State.reset = .refused .tilesPerRowZero) ∧
    (Memory.wf (loaded [] 16 1).src = true ∧ exec .parse (loaded [] 16 1) = .refused .sourceByteUnwritten) :=
  ⟨⟨by decide, rfl⟩, ⟨by decide, rfl⟩⟩

theorem witness_EveryCommandCompletes :
    Memory.wf sGood.src = true ∧ Written sGood 0 sGood.srcLen.toNat ∧ sGood.tpr ≠ 0#16 := by
  unfold Written
  decide

/-- The largest value that fits each register, and the smallest that does not. -/
theorem witness_HostWritesInputRegisters :
    65535 < 2 ^ 16 ∧ 2 ^ 16 ≤ 65536 ∧ 255 < 2 ^ 8 ∧ 2 ^ 8 ≤ 256 ∧ 4294967295 < 2 ^ 32 ∧ 2 ^ 32 ≤ 4294967296 ∧ 15 < 16 ∧ 16 ≤ 16 := by decide

/-- The last byte of the buffer, and the first address after it. -/
theorem witness_HostWritesSourceByte :
    Memory.wf sGood.src = true ∧ 255 < 2 ^ 8 ∧ 15 < sGood.srcLen.toNat ∧ sGood.srcLen.toNat ≤ 16 ∧ 2 ^ 8 ≤ 256 := by decide

/-- A length equal to the capacity, and one above it. -/
theorem witness_HostResizesSource :
    Memory.wf ({ sGood with srcCap := 16#32 } : State).src = true ∧ 16 < 2 ^ 32 ∧
    16 ≤ ({ sGood with srcCap := 16#32 } : State).srcCap.toNat ∧ ({ sGood with srcCap := 16#32 } : State).srcCap.toNat < 17 ∧
    17 < 2 ^ 32 ∧ 2 ^ 32 ≤ 4294967296 := by decide

theorem witness_LostBytesStayLost :
    sTiled.Inv ∧ (∃ t u, perform (.wr .srcLen 4) sTiled = .next t ∧ perform (.wr .srcLen 8) t = .next u) ∧ 4 ≤ 4 :=
  ⟨sTiled_inv, ⟨_, _, rfl, rfl⟩, le_refl 4⟩

theorem witness_HostLoadsSource :
    [1#8, 2#8].length ≤ ({ sGood with srcCap := 2#32 } : State).srcCap.toNat ∧
    ({ sGood with srcCap := 2#32 } : State).srcCap.toNat < [1#8, 2#8, 3#8].length := by decide

/-- Sixteen bytes, and fifteen. -/
theorem witness_HostLoadsChunk : chunkT10.toList.length = 16 ∧ (chunkT10.toList.take 15).length ≠ 16 := by decide

/-- A cell that exists and one that does not. -/
theorem witness_HostReadsChangeNothing :
    readLoc sTiled (.grid 7 23) = some (.value 0) ∧ readLoc sTiled (.grid 8 0) = none := by decide

/-- The last cell of each memory, a register, an index just out of range, a written and an unwritten byte of the source. -/
theorem witness_HostReadsExistingCells :
    sTiled.Inv ∧ 1 < sTiled.tileCount.toNat ∧ sTiled.tile[1]? = some (flat 3#2) ∧ gridCell sTiled.grid 7 15 = some 255#8 ∧
    (.err, 1) ∈ registerValues { sTiled with err := .formatError } ∧ 15 < 16 ∧ 16 ≤ 16 ∧ 7 < 8 ∧ (8 ≤ 8 ∨ 8 ≤ 0) ∧
    srcRead sGood 15 = some 0#8 ∧
    2 < (loaded [1#8, 2#8] 3 1).srcLen.toNat ∧ srcRead (loaded [1#8, 2#8] 3 1) 2 = none :=
  ⟨sTiled_inv, by decide, by decide, by decide, by decide, by decide, by decide, by decide, by decide, by decide, by decide,
    by decide⟩

theorem witness_OutputStateIsReadOnly :
    Loc.tile 0 7 7 ∈ [Loc.magic0, .magic1, .magic2, .magic3, .prg, .chr, .err, .pix 7 7, .tile 0 7 7, .tileCount, .inten, .grid 0 0,
      .gridW, .gridH, .rows] := by decide

theorem witness_HostActionsLeaveOutputs :
    ∃ t, perform (.wr .chrEnd 5) sTiled = .next t ∧ (∀ code, HostAction.wr .chrEnd 5 ≠ .cmd code) ∧ HostAction.wr .chrEnd 5 ≠ .reset :=
  ⟨_, rfl, by simp, by simp⟩

theorem witness_CommandsNeverWriteInputs :
    (∃ t, exec .run sGood = .next t) ∧ ∃ t, exec .decodeAll sGood = .next t ∧ Instr.decodeAll ≠ .parse ∧ Instr.decodeAll ≠ .run :=
  ⟨⟨_, rfl⟩, ⟨_, rfl, by decide⟩⟩

/-- Shrunk to one byte below `CHR_END`. -/
theorem witness_StaleDescriptorRaises :
    34 < (windowed program3 35 1 35).chrEnd.toNat ∧ ∃ t, perform (.wr .srcLen 34) (windowed program3 35 1 35) = .next t :=
  ⟨by decide, _, rfl⟩

/-- States with the invariant and a step from each: by a command, by the host's write, and with nothing to do. -/
theorem witness_StepKeepsInvariant :
    (({ sTiled with script := [.cmd 0x04#8] } : State).Inv ∧ ∃ t, step { sTiled with script := [.cmd 0x04#8] } = .next t) ∧
    (({ sTiled with script := [.wr .srcLen 5] } : State).Inv ∧ ∃ t, step { sTiled with script := [.wr .srcLen 5] } = .next t) ∧
    (State.reset.Inv ∧ ∃ t, step State.reset = .next t) :=
  ⟨⟨⟨sTiled_inv.1, sTiled_inv.2, sTiled_inv.3, sTiled_inv.4, sTiled_inv.5, sTiled_inv.6, sTiled_inv.7, sTiled_inv.8,
      sTiled_inv.9, sTiled_inv.10, sTiled_inv.11, sTiled_inv.12⟩, _, rfl⟩,
    ⟨⟨sTiled_inv.1, sTiled_inv.2, sTiled_inv.3, sTiled_inv.4, sTiled_inv.5, sTiled_inv.6, sTiled_inv.7, sTiled_inv.8,
      sTiled_inv.9, sTiled_inv.10, sTiled_inv.11, sTiled_inv.12⟩, _, rfl⟩,
    ⟨reset_inv, _, rfl⟩⟩

end Sys2Proof.Tests
end

-- ==== Proofs of the family 10_state ====
section
/-! PROOFS. What each operation keeps of the state, first as rules about the operations, then the statements of
spec/10_state.md. -/

namespace Sys2Proof.Machine

open Sys2Proof.Claims

section Rules

variable {s t u : State}

/-! ## The decoder's inverse -/

/-- A command found in the operation map is a row's, whose pattern the byte has on the row's mask. -/
theorem matchRow_eq_instr {code : Byte} {rows : List OpcodeRow} {i : Instr} (h : matchRow code rows = .instr i) :
    ∃ row ∈ rows, code &&& row.mask = row.pattern ∧ row.instr = i := by
  induction rows with
  | nil => cases h
  | cons row rows ih =>
    unfold matchRow at h
    split at h
    · cases h
      exact ⟨row, List.mem_cons_self, ‹_›, rfl⟩
    · obtain ⟨r, hr, hm⟩ := ih h
      exact ⟨r, List.mem_cons_of_mem _ hr, hm⟩

/-- Every row of the operation map compares all eight bits with the encoder's byte. -/
theorem opcodeTable_rows : ∀ row ∈ opcodeTable, row.mask = BitVec.allOnes 8 ∧ row.pattern = encode row.instr := by
  decide

/-- A byte that decodes to a command is that command's code. -/
theorem eq_encode_of_decode {code : Byte} {i : Instr} (h : decode code = .instr i) : code = encode i := by
  obtain ⟨row, hrow, hmatch, rfl⟩ := matchRow_eq_instr h
  obtain ⟨hmask, hpattern⟩ := opcodeTable_rows row hrow
  rw [← hpattern, ← hmatch, hmask, BitVec.and_allOnes]

/-! ## What a command keeps -/

/-- `t` holds the input state of `s` (R11) and the model's own fields; the descriptor, which PARSE writes, is not among them. -/
structure SameInputs (s t : State) : Prop where
  src : t.src = s.src
  srcLen : t.srcLen = s.srcLen
  tpr : t.tpr = s.tpr
  chunk : t.chunk = s.chunk
  cidx : t.cidx = s.cidx
  srcCap : t.srcCap = s.srcCap
  script : t.script = s.script
  reads : t.reads = s.reads

theorem SameInputs.trans (h : SameInputs s t) (h' : SameInputs t u) : SameInputs s u where
  src := h'.src.trans h.src
  srcLen := h'.srcLen.trans h.srcLen
  tpr := h'.tpr.trans h.tpr
  chunk := h'.chunk.trans h.chunk
  cidx := h'.cidx.trans h.cidx
  srcCap := h'.srcCap.trans h.srcCap
  script := h'.script.trans h.script
  reads := h'.reads.trans h.reads

theorem SameInputs.sameSource (h : SameInputs s t) : SameSource s t := fun a => by
  simp only [srcRead, h.src, h.srcLen]

theorem raise_sameInputs (site : RaiseSite) (e : DecodeError) (s : State) : SameInputs s (raise site e s) := by
  cases site <;> exact ⟨rfl, rfl, rfl, rfl, rfl, rfl, rfl, rfl⟩

theorem setParsed_sameInputs (s : State) (hd : Header) (a b : Nat) : SameInputs s (s.setParsed hd a b) :=
  ⟨rfl, rfl, rfl, rfl, rfl, rfl, rfl, rfl⟩

theorem setComposed_sameInputs (s : State) : SameInputs s s.setComposed :=
  ⟨rfl, rfl, rfl, rfl, rfl, rfl, rfl, rfl⟩

theorem decodeStage_sameInputs (h : decodeStage s = .next t) : SameInputs s t := by
  rcases decodeStage_cases h with ⟨-, rfl⟩ | ⟨-, region, -, rfl⟩
  · exact raise_sameInputs ..
  · exact ⟨rfl, rfl, rfl, rfl, rfl, rfl, rfl, rfl⟩

theorem execRun_sameInputs (h : execRun s = .next t) : SameInputs s t := by
  obtain ⟨-, ⟨e, -, rfl⟩ | ⟨hd, a, b, u, -, hu, -, rfl⟩⟩ := execRun_cases h
  · exact raise_sameInputs ..
  · exact ((setParsed_sameInputs s hd a b).trans (decodeStage_sameInputs hu)).trans (setComposed_sameInputs u)

/-- No command writes input state, the descriptor aside (R11, R45). -/
theorem exec_sameInputs {i : Instr} (h : exec i s = .next t) : SameInputs s t := by
  cases i with
  | parse =>
    rcases parseStage_cases h with ⟨e, -, rfl⟩ | ⟨hd, a, b, -, rfl⟩
    · exact raise_sameInputs ..
    · exact setParsed_sameInputs ..
  | decodeAll => exact decodeStage_sameInputs h
  | decodeTile =>
    cases h
    exact ⟨rfl, rfl, rfl, rfl, rfl, rfl, rfl, rfl⟩
  | compose =>
    obtain ⟨-, rfl⟩ := composeStage_cases h
    exact setComposed_sameInputs s
  | mapColor =>
    cases h
    exact ⟨rfl, rfl, rfl, rfl, rfl, rfl, rfl, rfl⟩
  | run => exact execRun_sameInputs h

/-- Only PARSE and RUN write the region descriptor (R45). -/
theorem exec_descriptor {i : Instr} (h : exec i s = .next t) (hp : i ≠ .parse) (hr : i ≠ .run) :
    t.chrStart = s.chrStart ∧ t.chrEnd = s.chrEnd := by
  cases i with
  | parse => exact absurd rfl hp
  | run => exact absurd rfl hr
  | decodeAll => rcases decodeStage_cases h with ⟨-, rfl⟩ | ⟨-, region, -, rfl⟩ <;> exact ⟨rfl, rfl⟩
  | compose =>
    obtain ⟨-, rfl⟩ := composeStage_cases h
    exact ⟨rfl, rfl⟩
  | decodeTile | mapColor =>
    cases h
    exact ⟨rfl, rfl⟩

/-- Only PARSE, DECODE_ALL and RUN write `ERR` (R17). -/
theorem exec_err {i : Instr} (h : exec i s = .next t) (hp : i ≠ .parse) (hd : i ≠ .decodeAll) (hr : i ≠ .run) :
    t.err = s.err := by
  cases i with
  | parse => exact absurd rfl hp
  | decodeAll => exact absurd rfl hd
  | run => exact absurd rfl hr
  | compose =>
    obtain ⟨-, rfl⟩ := composeStage_cases h
    rfl
  | decodeTile | mapColor =>
    cases h
    rfl

/-! ## What a line of the host changes -/

/-- A source buffer as the invariant wants it: canonical, below its length, the length within the capacity (R14). -/
structure SourceFits (m : Memory) (len cap : Word) : Prop where
  canonical : Memory.wf m = true
  belowLen : ∀ cell ∈ m, cell.1 < len.toNat
  withinCap : len.toNat ≤ cap.toNat

theorem State.Inv.sourceFits (hi : s.Inv) : SourceFits s.src s.srcLen s.srcCap :=
  ⟨hi.srcCanonical, hi.srcBelowLen, hi.srcLenWithinCap⟩

theorem SourceFits.memWrite {m : Memory} {len cap : Word} (h : SourceFits m len cap) {a : Nat} (ha : a < len.toNat)
    (v : Byte) : SourceFits (memWrite m a v) len cap where
  canonical := wf_memWrite h.canonical a v
  belowLen cell hc := by
    rcases mem_memWrite hc with rfl | hc
    · exact ha
    · exact h.belowLen cell hc
  withinCap := h.withinCap

/-- A number within the capacity is stored in 32 bits as it is. -/
theorem toNat_ofNat_of_le {n : Nat} {w : Word} (hn : n ≤ w.toNat) : (BitVec.ofNat 32 n).toNat = n := by
  rw [BitVec.toNat_ofNat, Nat.mod_eq_of_lt (hn.trans_lt w.isLt)]

theorem SourceFits.memTruncate {m : Memory} {len cap : Word} (h : SourceFits m len cap) {n : Nat} (hn : n ≤ cap.toNat) :
    SourceFits (memTruncate m (min n len.toNat)) (BitVec.ofNat 32 n) cap where
  canonical := wf_memTruncate h.canonical _
  belowLen cell hc := by
    rw [toNat_ofNat_of_le hn]
    exact (mem_memTruncate.1 hc).2.trans_le (min_le_left ..)
  withinCap := (toNat_ofNat_of_le hn).trans_le hn

theorem sourceFits_memOfBytes {bytes : List Byte} {cap : Word} (hn : bytes.length ≤ cap.toNat) :
    SourceFits (memOfBytes 0 bytes) (BitVec.ofNat 32 bytes.length) cap where
  canonical := wf_memOfBytes bytes
  belowLen cell hc := by
    rw [toNat_ofNat_of_le hn]
    simpa using mem_memOfBytes hc
  withinCap := (toNat_ofNat_of_le hn).trans_le hn

/-- The changes that a line other than a command and the reset event can make to a state: one part of the input state
replaced, or the values read (R11, R142). -/
inductive InputUpdate (s : State) : State → Prop where
  | source (m : Memory) (len : Word) (hm : s.Inv → SourceFits m len s.srcCap) : InputUpdate s (s.setSource m len)
  | descriptor (a b : Word) : InputUpdate s (s.setDescriptor a b)
  | chunk (c : Vector Byte 16) : InputUpdate s (s.setChunk c)
  | tpr (v : BitVec 16) : InputUpdate s (s.setTpr v)
  | cidx (v : Byte) : InputUpdate s (s.setCidx v)
  | reads (vs : List HostValue) : InputUpdate s (s.setHost s.script vs)

/-- A write that answers a next state replaces one part of the input state (R142). -/
theorem writeInput_update {x : Loc} {v : Nat} (h : writeInput s v x = .next t) : InputUpdate s t := by
  cases x with
  | src a =>
    rw [writeInput] at h
    split at h
    · rename_i ha
      cases h
      exact .source _ _ fun hi => hi.sourceFits.memWrite ha _
    · cases h
  | srcLen =>
    rw [writeInput] at h
    split at h
    · rename_i hv
      cases h
      exact .source _ _ fun hi => hi.sourceFits.memTruncate hv
    · cases h
  | chunk k =>
    rw [writeInput] at h
    split at h
    · cases h
      exact .chunk _
    · cases h
  | tpr =>
    cases h
    exact .tpr _
  | cidx =>
    cases h
    exact .cidx _
  | chrStart | chrEnd =>
    cases h
    exact .descriptor _ _
  | _ => cases h

/-- Every line that answers a next state, a command and the reset event apart, is an update of input state (R11, R142). -/
theorem perform_update {a : HostAction} (h : perform a s = .next t) (hc : ∀ code, a ≠ .cmd code) (hr : a ≠ .reset) :
    InputUpdate s t := by
  cases a with
  | cmd code => exact absurd rfl (hc code)
  | reset => exact absurd rfl hr
  | wr x v =>
    obtain ⟨-, -, hw⟩ := writeLoc_cases h
    exact writeInput_update hw
  | ldSrc bytes =>
    rw [perform_ldSrc, hostLdSrc] at h
    split at h
    · rename_i hn
      cases h
      exact .source _ _ fun _ => sourceFits_memOfBytes hn
    · cases h
  | ldChunk bytes =>
    rw [perform_ldChunk, hostLdChunk] at h
    split at h
    · cases h
      exact .chunk _
    · cases h
  | rd x =>
    rw [perform_rd, hostRd] at h
    split at h
    · cases h
      exact .reads _
    · cases h
  | rdCmd => cases h

/-- `WR SRC_LEN, n` answers a next state only for a length within the capacity, and resizes the buffer (R142). -/
theorem perform_wr_srcLen_cases {n : Nat} (h : perform (.wr .srcLen n) s = .next t) :
    n ≤ s.srcCap.toNat ∧ t = s.resizeSource n := by
  rw [perform_wr] at h
  obtain ⟨-, -, hw⟩ := writeLoc_cases h
  rw [writeInput] at hw
  split at hw
  · rename_i hn
    cases hw
    exact ⟨hn, rfl⟩
  · cases hw

/-- `WR SRC_LEN, n` with a length within the capacity. -/
theorem perform_wr_srcLen {n : Nat} (hn : n ≤ s.srcCap.toNat) : perform (.wr .srcLen n) s = .next (s.resizeSource n) := by
  have hfits : n < 2 ^ locWidth .srcLen := hn.trans_lt s.srcCap.isLt
  rw [perform_wr, writeLoc_fits rfl hfits, writeInput, if_pos hn]

/-! ## The read sets of PARSE and DECODE_ALL -/

/-- An unwritten byte of the magic leaves PARSE without an answer (R47). -/
theorem parseSource_of_magic_unwritten (hlen : 16 ≤ s.srcLen.toNat) {k : Nat} (hk : k < 4) (hu : srcRead s k = none) :
    parseSource s = none := by
  cases hp : parseSource s with
  | none => rfl
  | some r =>
    have hread : (srcRead s k).isSome = true := by
      rcases parseSource_cases hp with ⟨hlt, -⟩ | ⟨-, m0, m1, m2, m3, h0, h1, h2, h3, -⟩ |
        ⟨-, m0, m1, m2, m3, -, -, h0, h1, h2, h3, -⟩
      · omega
      all_goals interval_cases k <;> simp [*]
    simp [hu] at hread

/-- With the magic in place, an unwritten count leaves PARSE without an answer (R47). -/
theorem parseSource_of_count_unwritten (hlen : 16 ≤ s.srcLen.toNat) {m0 m1 m2 m3 : Byte} (h0 : srcRead s 0 = some m0)
    (h1 : srcRead s 1 = some m1) (h2 : srcRead s 2 = some m2) (h3 : srcRead s 3 = some m3) (hm : IsMagic m0 m1 m2 m3)
    (hu : srcRead s 4 = none ∨ srcRead s 5 = none) : parseSource s = none := by
  have hmagic : magicMatches m0 m1 m2 m3 = true := magicMatches_eq_true.2 hm
  rcases hu with h4 | h5
  · simp [parseSource, Config.hdrLen, not_lt.2 hlen, h0, h1, h2, h3, hmagic, h4]
  · simp [parseSource, Config.hdrLen, not_lt.2 hlen, h0, h1, h2, h3, hmagic, h5]

/-- PARSE and RUN are refused where `parse` has no answer (R14). -/
theorem exec_parse_run_of_unwritten (hp : parseSource s = none) :
    exec .parse s = .refused .sourceByteUnwritten ∧ (s.tpr ≠ 0#16 → exec .run s = .refused .sourceByteUnwritten) := by
  refine ⟨?_, fun ht => execRun_of_unwritten ht hp⟩
  simp [exec, execParse, parseStage, hp]

/-- DECODE_ALL is refused when a byte of the region's whole records was never written (R14, R47). -/
theorem decodeStage_of_unwritten (hwf : Memory.wf s.src = true)
    (hb : s.chrStart.toNat ≤ s.chrEnd.toNat ∧ s.chrEnd.toNat ≤ s.srcLen.toNat)
    (hu : ¬ Written s s.chrStart.toNat (16 * regionCount s)) : decodeStage s = .refused .sourceByteUnwritten := by
  have hrun : srcRun s s.chrStart.toNat (Config.tileBytes * regionTiles s) = none := by
    rw [← Option.not_isSome_iff_eq_none]
    exact fun hsome => hu ((srcRun_isSome hwf (region_in_bounds hb)).1 hsome)
  simp [decodeStage, descriptorInBounds_eq_true.2 hb, hrun]

theorem chrStartOf_le_chrEndOf (prg chr : Byte) : chrStartOf prg ≤ chrEndOf prg chr :=
  Nat.le_add_right ..

/-- The descriptor that a successful PARSE leaves lies in the buffer (R82, R107). -/
theorem setParsed_descriptor_in_bounds {hd : Header} {a b : Nat} (hp : parseSource s = some (.parsed hd a b)) :
    (s.setParsed hd a b).chrStart.toNat ≤ (s.setParsed hd a b).chrEnd.toNat ∧
      (s.setParsed hd a b).chrEnd.toNat ≤ (s.setParsed hd a b).srcLen.toNat := by
  obtain ⟨-, -, -, -, -, -, -, -, ha, hb, hle⟩ := parseSource_parsed hp
  have hab : a ≤ b := by
    rw [ha, hb]
    exact chrStartOf_le_chrEndOf ..
  simp only [State.setParsed, State.setErr_chrStart, State.setErr_chrEnd, State.setErr_srcLen,
    State.setDescriptor_chrStart, State.setDescriptor_chrEnd, State.setDescriptor_srcLen, State.setHeader_srcLen,
    toNat_ofNat_of_le hle, toNat_ofNat_of_le (hab.trans hle)]
  exact ⟨hab, hle⟩

/-! ## The invariant, one update at a time -/

/-- The reset values meet the invariant with every capacity (R27). -/
theorem reset_withCap_inv (cap : Word) : ({ State.reset with srcCap := cap } : State).Inv where
  srcCanonical := rfl
  srcBelowLen := by simp [State.reset]
  srcLenWithinCap := Nat.zero_le _
  tileCountIsLength := rfl
  tilesWithinCap := Nat.zero_le _
  gridHeight := rfl
  gridWidth := by simp [State.reset]
  gridRows := rfl
  gridColumns := rfl
  gridSamples := by simp [State.reset]
  intenSample := List.mem_cons_self
  header := .inr ⟨rfl, rfl, rfl, rfl, rfl, rfl⟩

theorem State.Inv.setErr (hi : s.Inv) (e : ErrCode) : (s.setErr e).Inv := { hi with }

theorem State.Inv.setDescriptor (hi : s.Inv) (a b : Word) : (s.setDescriptor a b).Inv := { hi with }

theorem State.Inv.setPix (hi : s.Inv) (p : Tile) : (s.setPix p).Inv := { hi with }

theorem State.Inv.setTpr (hi : s.Inv) (v : BitVec 16) : (s.setTpr v).Inv := { hi with }

theorem State.Inv.setCidx (hi : s.Inv) (v : Byte) : (s.setCidx v).Inv := { hi with }

theorem State.Inv.setChunk (hi : s.Inv) (c : Vector Byte 16) : (s.setChunk c).Inv := { hi with }

theorem State.Inv.setHost (hi : s.Inv) (script : List HostAction) (reads : List HostValue) :
    (s.setHost script reads).Inv := { hi with }

theorem State.Inv.setSource (hi : s.Inv) {m : Memory} {len : Word} (hm : SourceFits m len s.srcCap) :
    (s.setSource m len).Inv :=
  { hi with srcCanonical := hm.canonical, srcBelowLen := hm.belowLen, srcLenWithinCap := hm.withinCap }

theorem State.Inv.setInten (hi : s.Inv) {v : Byte} (hv : v ∈ intensities) : (s.setInten v).Inv :=
  { hi with intenSample := hv }

theorem State.Inv.clearHeader (hi : s.Inv) : (s.setHeader 0#8 0#8 0#8 0#8 0#8 0#8).Inv :=
  { hi with header := .inr ⟨rfl, rfl, rfl, rfl, rfl, rfl⟩ }

theorem State.Inv.setHeader (hi : s.Inv) {m0 m1 m2 m3 : Byte} (hm : magicMatches m0 m1 m2 m3 = true) (prg chr : Byte) :
    (s.setHeader m0 m1 m2 m3 prg chr).Inv :=
  { hi with header := .inl (magicMatches_eq_true.1 hm) }

/-- A tile store of at most `SRC_CAP div 16` tiles (R22). -/
theorem State.Inv.setTiles (hi : s.Inv) {ts : List Tile} (hts : 16 * ts.length ≤ s.srcCap.toNat) : (s.setTiles ts).Inv :=
  have hlen : (BitVec.ofNat 32 ts.length).toNat = ts.length :=
    toNat_ofNat_of_le ((Nat.le_mul_of_pos_left _ (by decide)).trans hts)
  { hi with
    tileCountIsLength := hlen.symm
    tilesWithinCap := by rwa [State.setTiles_tileCount, hlen] }

theorem State.Inv.emptyOutputs (hi : s.Inv) : s.emptyOutputs.Inv :=
  { hi.setTiles (ts := []) (Nat.zero_le _) with
    gridHeight := rfl
    gridWidth := by simp
    gridRows := rfl
    gridColumns := rfl
    gridSamples := by simp }

/-! ## The invariant, command by command -/

theorem State.Inv.raise (hi : s.Inv) (site : RaiseSite) (e : DecodeError) : (raise site e s).Inv := by
  cases site with
  | parse => exact (hi.clearHeader.setDescriptor ..).setErr _
  | run => exact ((hi.clearHeader.setDescriptor ..).setErr _).emptyOutputs
  | decodeAll => exact (hi.setTiles (Nat.zero_le _)).setErr _

theorem State.Inv.setParsed (hi : s.Inv) {hd : Header} {a b : Nat} (hp : parseSource s = some (.parsed hd a b)) :
    (s.setParsed hd a b).Inv := by
  obtain ⟨-, -, -, -, -, -, -, hm, -⟩ := parseSource_parsed hp
  exact ((hi.setHeader hm ..).setDescriptor ..).setErr _

/-- The region's whole records lie in the buffer, so there are at most `SRC_CAP div 16` of them (R22, R44). -/
theorem State.Inv.decodeStage (hi : s.Inv) (h : decodeStage s = .next t) : t.Inv := by
  rcases decodeStage_cases h with ⟨-, rfl⟩ | ⟨hb, region, hr, rfl⟩
  · exact hi.raise ..
  · refine (hi.setTiles ?_).setErr _
    have hcount : (decodeAll region).length = regionTiles s := by
      rw [decodeAll_length, srcRun_length hr, Nat.mul_div_cancel_left _ (by decide)]
    have hregion := region_in_bounds (descriptorInBounds_eq_true.1 hb)
    have hcap := hi.srcLenWithinCap
    rw [hcount, regionTiles, Config.tileBytes]
    omega

theorem mapColor_mem_intensities (n : Nat) : mapColor n ∈ intensities :=
  match n with
  | 0 | 1 | 2 | 3 => by decide
  | n + 4 => by
    rw [mapColor_of_le _ (Nat.le_add_left 4 n)]
    decide

theorem bandSample_mem_intensities (band : List Tile) (y : Fin 8) (c : Nat) : bandSample band y c ∈ intensities := by
  unfold bandSample
  split
  · exact mapColor_mem_intensities _
  · decide

/-- Every sample of a composed grid is one of the four intensities (R64). -/
theorem compose_samples (tiles : List Tile) (t : Nat) : ∀ row ∈ compose tiles t, ∀ v ∈ row, v ∈ intensities := by
  intro row hrow v hv
  obtain ⟨r, -, rfl⟩ := List.mem_map.1 hrow
  obtain ⟨c, -, rfl⟩ := List.mem_map.1 hv
  exact bandSample_mem_intensities ..

theorem compose_row_length (tiles : List Tile) (t : Nat) : ∀ row ∈ compose tiles t, row.length = 8 * t := by
  intro row hrow
  obtain ⟨r, -, rfl⟩ := List.mem_map.1 hrow
  exact gridRow_length ..

theorem rowCount_le {n t : Nat} (ht : 1 ≤ t) : rowCount n t ≤ n := by
  have hmul : n ≤ n * t := Nat.le_mul_of_pos_right n ht
  refine Nat.le_of_lt_succ ((Nat.div_lt_iff_lt_mul ht).2 ?_)
  rw [Nat.succ_mul]
  omega

/-- COMPOSE's dimensions fit their registers, because there are fewer than `2^28` tiles and `2^16` columns of them. -/
theorem State.Inv.setComposed (hi : s.Inv) (ht : s.tpr ≠ 0#16) : s.setComposed.Inv := by
  have htiles : s.tiles.length ≤ s.tileCount.toNat := by simp [State.tiles]
  have hrows : rowCount s.tiles.length s.tpr.toNat ≤ s.tiles.length :=
    rowCount_le (Nat.pos_of_ne_zero fun h0 => ht (BitVec.eq_of_toNat_eq h0))
  have hcap := hi.tilesWithinCap
  have hcap32 := s.srcCap.isLt
  have htpr := s.tpr.isLt
  have hR : s.setComposed.rows.toNat = rowCount s.tiles.length s.tpr.toNat := by
    simp only [State.setComposed, State.setGrid_rows, BitVec.toNat_ofNat]
    omega
  have hH : s.setComposed.gridH.toNat = 8 * rowCount s.tiles.length s.tpr.toNat := by
    simp only [State.setComposed, State.setGrid_gridH, BitVec.toNat_ofNat, Config.tileDim]
    omega
  have hW : s.setComposed.gridW.toNat = 8 * s.tpr.toNat := by
    simp only [State.setComposed, State.setGrid_gridW, BitVec.toNat_ofNat, Config.tileDim]
    omega
  exact
    { hi with
      gridHeight := (compose_length ..).trans hH.symm
      gridWidth := fun row hrow => (compose_row_length _ _ row hrow).trans hW.symm
      gridRows := by rw [hH, hR]
      gridColumns := by rw [hW, Nat.mul_mod_right]
      gridSamples := compose_samples _ _ }

/-- Every command keeps the invariant. -/
theorem State.Inv.exec (hi : s.Inv) {i : Instr} (h : exec i s = .next t) : t.Inv := by
  cases i with
  | parse =>
    rcases parseStage_cases h with ⟨e, -, rfl⟩ | ⟨hd, a, b, hp, rfl⟩
    · exact hi.raise ..
    · exact hi.setParsed hp
  | decodeAll => exact hi.decodeStage h
  | decodeTile =>
    cases h
    exact hi.setPix _
  | compose =>
    obtain ⟨ht, rfl⟩ := composeStage_cases h
    exact hi.setComposed ht
  | mapColor =>
    cases h
    exact hi.setInten (mapColor_mem_intensities _)
  | run =>
    obtain ⟨-, ⟨e, -, rfl⟩ | ⟨hd, a, b, u, hp, hu, ht, rfl⟩⟩ := execRun_cases h
    · exact hi.raise ..
    · exact ((hi.setParsed hp).decodeStage hu).setComposed ht

/-! ## The invariant, line by line -/

theorem State.Inv.inputUpdate (hi : s.Inv) (h : InputUpdate s t) : t.Inv := by
  cases h with
  | source m len hm => exact hi.setSource (hm hi)
  | descriptor a b => exact hi.setDescriptor a b
  | chunk c => exact hi.setChunk c
  | tpr v => exact hi.setTpr v
  | cidx v => exact hi.setCidx v
  | reads vs => exact hi.setHost _ vs

/-- Every line of a host script keeps the invariant. -/
theorem State.Inv.perform (hi : s.Inv) {a : HostAction} (h : perform a s = .next t) : t.Inv := by
  cases a with
  | cmd code =>
    obtain ⟨i, -, hexec⟩ := issue_cases h
    exact hi.exec hexec
  | reset =>
    cases h
    exact (reset_withCap_inv s.srcCap).setHost ..
  | wr | ldSrc | ldChunk | rd | rdCmd => exact hi.inputUpdate (perform_update h (by simp) (by simp))

/-! ## The step, and the source at reset -/

/-- A step with a line left performs it on the state with that line taken (R179). -/
theorem step_of_script {a : HostAction} {rest : List HostAction} (h : s.script = a :: rest) :
    step s = perform a { s with script := rest } := by
  simp only [step, nextAction, h]
  rfl

/-- No address holds a byte at reset (R27). -/
theorem srcRead_reset (a : Nat) : srcRead State.reset a = none :=
  if_neg (Nat.not_lt_zero a)

end Rules

/-! ## The statements -/

/-- Settles O60: a step waits, or performs one line, and every line keeps the invariant. -/
theorem stepKeepsInvariant : Obligations.StepKeepsInvariant := by
  intro s t hi h
  rcases step_cases h with ⟨-, rfl⟩ | ⟨a, rest, -, hperform⟩
  · exact hi
  · exact (hi.setHost rest s.reads).perform hperform

/-- Settles O16: PARSE's read set is bytes 0 to 3, and with the magic in place 4 and 5 as well. -/
theorem parseRefusesUnwrittenByte : Obligations.ParseRefusesUnwrittenByte := by
  intro s hlen
  refine ⟨?_, ?_⟩
  · rintro ⟨k, hk, hu⟩
    exact exec_parse_run_of_unwritten (parseSource_of_magic_unwritten hlen hk hu)
  · intro m0 m1 m2 m3 h0 h1 h2 h3 hm hu
    exact exec_parse_run_of_unwritten (parseSource_of_count_unwritten hlen h0 h1 h2 h3 hm hu)

/-- Settles O23: the descriptor that a successful PARSE leaves is in bounds, so RUN's second stage refuses as DECODE_ALL does. -/
theorem decodeAllRefusesUnwrittenByte : Obligations.DecodeAllRefusesUnwrittenByte := by
  refine ⟨fun s hwf hse hel hu => decodeStage_of_unwritten hwf ⟨hse, hel⟩ hu, ?_⟩
  intro s t hwf ht hparse herr hu
  rcases parseStage_cases hparse with ⟨e, -, rfl⟩ | ⟨hd, a, b, hp, rfl⟩
  · cases e <;> cases herr
  · have hdecode : decodeStage (s.setParsed hd a b) = .refused .sourceByteUnwritten :=
      decodeStage_of_unwritten hwf (setParsed_descriptor_in_bounds hp) hu
    rw [exec, execRun_of_parsed ht hp, hdecode]
    rfl

/-- Settles O42: a command byte other than the three codes selects none of the three commands, and no other line writes output
state. -/
theorem errWrittenByThreeOperations : Obligations.ErrWrittenByThreeOperations := by
  intro s t a h hreset hparse hdecodeAll hrun
  cases a with
  | cmd code =>
    obtain ⟨i, hi, hexec⟩ := issue_cases h
    obtain rfl := eq_encode_of_decode hi
    refine exec_err hexec ?_ ?_ ?_ <;> rintro rfl
    · exact hparse rfl
    · exact hdecodeAll rfl
    · exact hrun rfl
  | reset => exact absurd rfl hreset
  | wr | ldSrc | ldChunk | rd | rdCmd => cases perform_update h (by simp) (by simp) <;> rfl

/-- Settles O49: a length within the capacity resizes the buffer; above it the write, above 32 bits the value, is refused. -/
theorem hostResizesSource : Obligations.HostResizesSource := by
  intro s n
  refine ⟨fun hwf hn hcap => ?_, fun hn hcap => ?_, fun hn => ?_⟩
  · exact ⟨s.resizeSource n, perform_wr_srcLen hcap, rfl, toNat_ofNat_of_le hcap, srcRead_resizeSource hwf hn⟩
  · have hfits : n < 2 ^ locWidth .srcLen := hn
    rw [perform_wr, writeLoc_fits rfl hfits, writeInput, if_neg (not_le.2 hcap)]
  · have hwide : 2 ^ locWidth .srcLen ≤ n := hn
    rw [perform_wr, writeLoc_tooWide rfl hwide]

/-- Settles O50: the second resize keeps at most what the first one left, and that is nothing from `n` on. -/
theorem lostBytesStayLost : Obligations.LostBytesStayLost := by
  intro s t u n k hi ht hu a ha
  obtain ⟨hn, rfl⟩ := perform_wr_srcLen_cases ht
  obtain ⟨hk, rfl⟩ := perform_wr_srcLen_cases hu
  have hwf : Memory.wf (s.resizeSource n).src = true := wf_memTruncate hi.srcCanonical _
  have hlost : srcRead (s.resizeSource n) a = none := by
    rw [srcRead_resizeSource hi.srcCanonical (hn.trans_lt s.srcCap.isLt), if_neg (not_lt.2 ha)]
  rw [srcRead_resizeSource hwf (hk.trans_lt (BitVec.isLt _)), hlost, ite_self]

/-- Settles O56: every update of input state leaves the other fields. -/
theorem hostActionsLeaveOutputs : Obligations.HostActionsLeaveOutputs := by
  intro s t a h hcmd hreset
  cases perform_update h hcmd hreset <;> rfl

/-- Settles O57: the input state of every command's next state, and its descriptor. -/
theorem commandsNeverWriteInputs : Obligations.CommandsNeverWriteInputs := by
  intro s t i h
  have hin := exec_sameInputs h
  exact ⟨hin.sameSource, hin.src, hin.srcLen, hin.tpr, hin.chunk, hin.cidx, hin.srcCap, hin.script, hin.reads,
    exec_descriptor h⟩

/-- Settles O3: the line is taken from the script, the byte decoded, and the command executed. -/
theorem stepRunsTheDecodedCommand : Obligations.StepRunsTheDecodedCommand := by
  intro s code rest i hscript hdecode _
  rw [step_of_script hscript, perform_cmd, issue, hdecode]

/-- Settles O45: the reset values by name, and each command run on them. -/
theorem resetState : Obligations.ResetState := by
  refine ⟨rfl, srcRead_reset, rfl, rfl, rfl, rfl, rfl, rfl, rfl, rfl, rfl, ?_, ?_, rfl, rfl, rfl, rfl, rfl, rfl, rfl, rfl, rfl,
    rfl, rfl, rfl, rfl, rfl, rfl⟩
  · intro k hk
    exact Vector.getElem_replicate hk
  · intro y x hy hx
    simp [State.reset]

/-- Settles O55: none of the names is writable. -/
theorem outputStateIsReadOnly : Obligations.OutputStateIsReadOnly := by
  intro s v i y x r k l hl
  have hreadOnly : ∀ l ∈ [Loc.magic0, .magic1, .magic2, .magic3, .prg, .chr, .err, .pix y x, .tile i y x, .tileCount, .inten,
      .grid r k, .gridW, .gridH, .rows], locWritable l = false := by
    simp [locWritable]
  exact writeLoc_readOnly (hreadOnly l hl)

/-- Settles O59: the reset state is its own with the capacity of reset. -/
theorem invariantAtReset : Obligations.InvariantAtReset :=
  reset_withCap_inv State.reset.srcCap

end Sys2Proof.Machine
end

-- ==== Proofs of the family 20_memory ====
section
/-! PROOFS. The bytes of the source that DECODE_ALL depends on, and the statement of spec/20_memory.md. -/

namespace Sys2Proof.Machine

/-! ## Reads of two sources that agree on a range -/

/-- Two canonical memories that agree on a range of addresses give the same run of bytes there, or both give none. -/
theorem memRun_congr {lo lo' : Nat} {m m' : Memory} (hm : Memory.wfFrom lo m = true) (hm' : Memory.wfFrom lo' m' = true)
    {a n : Nat} (hagree : ∀ k < n, memLookup m (a + k) = memLookup m' (a + k)) : memRun m a n = memRun m' a n := by
  refine Option.ext fun bytes => ?_
  rw [memRun_eq_some hm, memRun_eq_some hm']
  exact and_congr_right fun _ => forall₂_congr fun k hk => by rw [hagree k hk]

/-- A run of source bytes is the same in every canonical source that agrees on its addresses. -/
theorem srcRun_with_src {s : State} {m : Memory} (hwf : Memory.wf s.src = true) (hm : Memory.wf m = true) {a n : Nat}
    (hagree : ∀ k < n, memLookup m (a + k) = memLookup s.src (a + k)) : srcRun { s with src := m } a n = srcRun s a n :=
  if_congr Iff.rfl (memRun_congr hm hwf hagree) rfl

/-! ## The statement -/

/-- Settles O24: the descriptor check reads no source byte, and past it the source is read only by the run of the region's whole
records, which the two sources give alike. -/
theorem decodeAllReadsOnlyTheRegion : Obligations.DecodeAllReadsOnlyTheRegion := by
  intro s m hwf hm hagree
  have hrun : srcRun { s with src := m } s.chrStart.toNat (Config.tileBytes * regionTiles s) =
      srcRun s s.chrStart.toNat (Config.tileBytes * regionTiles s) := srcRun_with_src hwf hm hagree
  have hbounds : descriptorInBounds { s with src := m } = descriptorInBounds s := rfl
  have hcount : regionTiles { s with src := m } = regionTiles s := rfl
  simp only [exec, execDecodeAll, decodeStage, hbounds, hcount, hrun]
  cases descriptorInBounds s with
  | false => rfl
  | true => cases srcRun s s.chrStart.toNat (Config.tileBytes * regionTiles s) <;> rfl

end Sys2Proof.Machine
end

-- ==== Proofs of the family 30_encoding ====
section
/-! PROOFS. The decoder on every byte, the bits of the offsets and of a colour index, then the statements of
spec/30_encoding.md. -/

namespace Sys2Proof.Machine

open Sys2Proof.Claims

/-! ## The decoder on every byte -/

/-- The statements of Laws/PerInstr.lean, for all commands together. -/
theorem encoding_statement : ∀ i : Instr, Laws.Encoding.Statement i
  | .parse => Laws.Encoding.parse
  | .decodeAll => Laws.Encoding.decodeAll
  | .decodeTile => Laws.Encoding.decodeTile
  | .compose => Laws.Encoding.compose
  | .mapColor => Laws.Encoding.mapColor
  | .run => Laws.Encoding.run

theorem wellFormed_eq_true (i : Instr) : i.wellFormed = true := by
  cases i <;> rfl

theorem decode_encode (i : Instr) : decode (encode i) = .instr i :=
  (encoding_statement i (wellFormed_eq_true i)).1

/-- The codes of the commands are 1 to 6. -/
theorem encode_toNat_bounds (i : Instr) : 1 ≤ (encode i).toNat ∧ (encode i).toNat ≤ 6 :=
  (encoding_statement i (wellFormed_eq_true i)).2

/-- A byte that no row matches is answered as itself. -/
theorem eq_of_matchRow_reserved {code c : Byte} {rows : List OpcodeRow} (h : matchRow code rows = .reserved c) : c = code := by
  induction rows with
  | nil =>
    cases h
    rfl
  | cons row rows ih =>
    unfold matchRow at h
    split at h
    · cases h
    · exact ih h

/-- A byte outside 1 to 6 is no command's code, so the decoder answers that it is reserved (R69 (a)). -/
theorem decode_of_reserved {code : Byte} (h : code = 0x00#8 ∨ 7 ≤ code.toNat) : decode code = .reserved code := by
  cases hd : decode code with
  | reserved c => rw [eq_of_matchRow_reserved hd]
  | instr i =>
    obtain rfl := eq_encode_of_decode hd
    obtain ⟨hlo, hhi⟩ := encode_toNat_bounds i
    rcases h with hzero | hge
    · rw [hzero] at hlo
      exact absurd hlo (by decide)
    · omega

/-! ## The bits of the offsets and of a colour index -/

/-- `chrStart` is an odd multiple of 16. -/
theorem chrStartOf_eq_mul (prg : Byte) : chrStartOf prg = 2 ^ 4 * (2 * (512 * prg.toNat) + 1) := by
  unfold chrStartOf Config.hdrLen Config.prgUnit
  omega

/-- `chrEnd` is a multiple of 16. -/
theorem chrEndOf_eq_mul (prg chr : Byte) : chrEndOf prg chr = 2 ^ 4 * (2 * (512 * prg.toNat) + 1 + 512 * chr.toNat) := by
  unfold chrEndOf Config.chrUnit
  rw [chrStartOf_eq_mul]
  omega

/-- The bits of a multiple of `2 ^ n` below bit `n` are 0. -/
theorem testBit_two_pow_mul_of_lt {n k : Nat} (hk : k < n) (a : Nat) : (2 ^ n * a).testBit k = false := by
  rw [Nat.testBit_two_pow_mul, decide_eq_false (not_le.2 hk), Bool.false_and]

/-- One bit of a byte as a natural, as R66 writes it. -/
theorem toNat_shiftRight_and_one (p : Byte) (k : Nat) : (p.toNat >>> k) &&& 1 = (p.getLsbD k).toNat := by
  rw [Nat.and_one_is_mod, Nat.shiftRight_eq_div_pow, ← Nat.toNat_testBit, BitVec.testBit_toNat]

/-- The value of a colour index is R66's sum of the two plane bits. -/
theorem pixelIndex_toNat_eq_planeIndex (p1 p2 : Byte) (x : Nat) : (pixelIndex p1 p2 x).toNat = planeIndex p1 p2 x := by
  rw [pixelIndex_toNat, planeIndex, toNat_shiftRight_and_one, toNat_shiftRight_and_one]

/-! ## The statements -/

/-- Settles O17: the sum is that of the two plane bits, and the 2-bit value is their pair. -/
theorem colourIndexFromPlanes : Obligations.ColourIndexFromPlanes := by
  intro p1 p2 x _
  exact ⟨pixelIndex_toNat_eq_planeIndex p1 p2 x, pixelIndex_eq_append p1 p2 x⟩

/-- Settles O1: the six codes are the encoder's, and any other byte is outside 1 to 6. -/
theorem commandCodesDecode : Obligations.CommandCodesDecode :=
  ⟨decode_encode .parse, decode_encode .decodeAll, decode_encode .decodeTile, decode_encode .compose,
    decode_encode .mapColor, decode_encode .run, fun _ => decode_of_reserved⟩

/-- Settles O2: the decoder inverts the encoder, and a decoded byte is its command's code. -/
theorem encodeDecodeAgree : Obligations.EncodeDecodeAgree := by
  intro i _
  exact ⟨decode_encode i, fun _ => eq_encode_of_decode⟩

/-- Settles O5: the byte decodes to reserved, and a reserved byte is refused when it is issued. -/
theorem reservedCodesRefused : Obligations.ReservedCodesRefused := by
  intro s code h
  rw [perform_cmd, issue, decode_of_reserved h]

/-- Settles O11: the units are 2^14 and 2^13, and both offsets are multiples of 16, `chrStart` an odd one. -/
theorem offsetsAreShiftedCounts : Obligations.OffsetsAreShiftedCounts := by
  intro prg chr
  refine ⟨?_, ?_, ?_, ?_⟩
  · rw [Nat.shiftLeft_eq]
    rfl
  · rw [Nat.shiftLeft_eq]
    rfl
  · intro k hk
    rw [chrStartOf_eq_mul, chrEndOf_eq_mul]
    exact ⟨testBit_two_pow_mul_of_lt hk _, testBit_two_pow_mul_of_lt hk _⟩
  · rw [chrStartOf_eq_mul, Nat.testBit_two_pow_mul]
    simp

end Sys2Proof.Machine
end

-- ==== Proofs of the family 40_container_parser ====
section
/-! PROOFS. PARSE as a function of `parse` on the source, the steps of the pure `parse`, then the statements of
spec/40_container_parser.md. -/

namespace Sys2Proof.Machine

open Sys2Proof.Claims

section Rules

variable {s t : State} {bytes : List Byte}

/-! ## PARSE by the result of its parse -/

theorem exec_parse_of_unwritten (hp : parseSource s = none) : exec .parse s = .refused .sourceByteUnwritten :=
  (exec_parse_run_of_unwritten hp).1

theorem exec_parse_of_failed {e : DecodeError} (hp : parseSource s = some (.failed e)) :
    exec .parse s = .next (parseFailed s (errOf e)) := by
  rw [exec, execParse, parseStage, hp]
  rfl

/-- The offsets of a successful parse are those of its counts, so PARSE's next state is a function of the header. -/
theorem exec_parse_of_parsed {hd : Header} {a b : Nat} (hp : parseSource s = some (.parsed hd a b)) :
    exec .parse s = .next (parseDone s hd.magic0 hd.magic1 hd.magic2 hd.magic3 hd.prg hd.chr) := by
  obtain ⟨-, -, -, -, -, -, -, -, rfl, rfl, -⟩ := parseSource_parsed hp
  rw [exec, execParse, parseStage, hp]
  rfl

/-- Every next state of PARSE, as R80 and R156 write it. -/
theorem exec_parse_cases (h : exec .parse s = .next t) :
    (∃ e, parseSource s = some (.failed e) ∧ t = parseFailed s (errOf e)) ∨
    (∃ hd a b, parseSource s = some (.parsed hd a b) ∧
      t = parseDone s hd.magic0 hd.magic1 hd.magic2 hd.magic3 hd.prg hd.chr) := by
  rcases parseStage_cases h with ⟨e, hp, -⟩ | ⟨hd, a, b, hp, -⟩
  · rw [exec_parse_of_failed hp] at h
    cases h
    exact .inl ⟨e, hp, rfl⟩
  · rw [exec_parse_of_parsed hp] at h
    cases h
    exact .inr ⟨hd, a, b, hp, rfl⟩

/-- PARSE looks at nothing but the length and the first six bytes (R84). -/
theorem parseSource_congr (hlen : t.srcLen = s.srcLen) (hread : ∀ a < 6, srcRead t a = srcRead s a) :
    parseSource t = parseSource s := by
  simp only [parseSource, hlen, hread 0 (by decide), hread 1 (by decide), hread 2 (by decide), hread 3 (by decide),
    hread 4 (by decide), hread 5 (by decide)]

/-! ## The magic and the offsets -/

theorem magicMatches_eq_false {m0 m1 m2 m3 : Byte} (hm : ¬ IsMagic m0 m1 m2 m3) : magicMatches m0 m1 m2 m3 = false :=
  Bool.eq_false_iff.2 fun h => hm (magicMatches_eq_true.1 h)

/-- The bounds and the residues of the offsets (R82). -/
theorem offset_bounds (prg chr : Byte) :
    16 ≤ chrStartOf prg ∧ chrStartOf prg ≤ 4177936 ∧ chrStartOf prg ≤ chrEndOf prg chr ∧ chrEndOf prg chr ≤ 6266896 ∧
    chrEndOf prg chr < 2 ^ 23 ∧ chrEndOf prg chr - chrStartOf prg = chr.toNat * 8192 ∧
    (chrEndOf prg chr - chrStartOf prg) % 16 = 0 ∧ chrStartOf prg % 16 = 0 ∧ chrStartOf prg % 16384 = 16 := by
  have hprg : prg.toNat < 256 := prg.isLt
  have hchr : chr.toNat < 256 := chr.isLt
  have hstart : chrStartOf prg = 16 + prg.toNat * 16384 := rfl
  have hend : chrEndOf prg chr = chrStartOf prg + chr.toNat * 8192 := rfl
  omega

/-- A region that is located is in bounds (R82). -/
theorem locateRegion_in_bounds {len a b : Nat} {hd hd' : Header} (h : locateRegion len hd = .parsed hd' a b) :
    a ≤ b ∧ b ≤ len := by
  unfold locateRegion at h
  split at h
  · cases h
  · cases h
    exact ⟨chrStartOf_le_chrEndOf .., not_lt.1 ‹_›⟩

/-! ## The pure function `parse` -/

theorem parse_short (hlen : bytes.length < 16) : parse bytes = .failed .truncatedInput := by
  unfold parse
  split
  · exact if_pos hlen
  · rfl

/-- On 16 bytes or more the magic decides, and then the region (R81 steps 2 to 5). -/
theorem parse_long (hlen : 16 ≤ bytes.length) :
    parse bytes =
      if magicMatches bytes[0] bytes[1] bytes[2] bytes[3] = false then .failed .formatError
      else locateRegion bytes.length ⟨bytes[0], bytes[1], bytes[2], bytes[3], bytes[4], bytes[5]⟩ := by
  match bytes, hlen with
  | _ :: _ :: _ :: _ :: _ :: _ :: _, hlen => exact if_neg (not_lt.2 hlen)

/-- The first four bytes are the magic exactly when the check of all 32 bits says so (R83). -/
theorem take_four_eq_magic_iff (hlen : 16 ≤ bytes.length) :
    bytes.take 4 = [0x4E#8, 0x45#8, 0x53#8, 0x1A#8] ↔ magicMatches bytes[0] bytes[1] bytes[2] bytes[3] = true := by
  rw [magicMatches_eq_true]
  match bytes, hlen with
  | _ :: _ :: _ :: _ :: _, _ => simp

theorem parse_of_wrong_magic (hlen : 16 ≤ bytes.length) (hm : bytes.take 4 ≠ [0x4E#8, 0x45#8, 0x53#8, 0x1A#8]) :
    parse bytes = .failed .formatError := by
  rw [parse_long hlen, if_pos (Bool.eq_false_iff.2 (mt (take_four_eq_magic_iff hlen).2 hm))]

theorem parse_of_magic (hlen : 16 ≤ bytes.length) (hm : bytes.take 4 = [0x4E#8, 0x45#8, 0x53#8, 0x1A#8]) :
    parse bytes = locateRegion bytes.length ⟨bytes[0], bytes[1], bytes[2], bytes[3], bytes[4], bytes[5]⟩ := by
  rw [parse_long hlen, if_neg (ne_false_of_eq_true ((take_four_eq_magic_iff hlen).1 hm))]

/-- On a wholly written source, PARSE's parse is the pure one (R80). -/
theorem parseSource_eq_parse (hlen : bytes.length = s.srcLen.toNat) (hread : ∀ a < bytes.length, srcRead s a = bytes[a]?) :
    parseSource s = some (parse bytes) := by
  rcases lt_or_ge bytes.length 16 with hshort | hlong
  · rw [parse_short hshort, parseSource_short (hlen ▸ hshort)]
  · have hbyte : ∀ k (hk : k < 16), srcRead s k = some bytes[k] := fun k hk => by
      rw [hread k (hk.trans_le hlong), List.getElem?_eq_getElem]
    have h0 := hbyte 0 (by decide)
    have h1 := hbyte 1 (by decide)
    have h2 := hbyte 2 (by decide)
    have h3 := hbyte 3 (by decide)
    have hlong' : 16 ≤ s.srcLen.toNat := hlen ▸ hlong
    rw [parse_long hlong]
    split
    next hm => exact parseSource_magic hlong' h0 h1 h2 h3 hm
    next hm =>
      rw [parseSource_region hlong' h0 h1 h2 h3 (hbyte 4 (by decide)) (hbyte 5 (by decide)) (Bool.eq_true_of_not_eq_false hm),
        ← hlen]

end Rules

/-! ## The statements -/

/-- Settles O7: what the source's length, magic and counts make of its parse decides the next state. -/
theorem parseOutcomes : Obligations.ParseOutcomes := by
  intro s
  refine ⟨fun hshort => exec_parse_of_failed (parseSource_short hshort), ?_⟩
  intro m0 m1 m2 m3 hlen h0 h1 h2 h3
  refine ⟨fun hm => exec_parse_of_failed (parseSource_magic hlen h0 h1 h2 h3 (magicMatches_eq_false hm)), ?_⟩
  intro prg chr hm h4 h5
  have hp := parseSource_region hlen h0 h1 h2 h3 h4 h5 (magicMatches_eq_true.2 hm)
  exact ⟨fun hlt => exec_parse_of_failed (hp.trans (congrArg some (locateRegion_truncated hlt))),
    fun hle => exec_parse_of_parsed (hp.trans (congrArg some (locateRegion_parsed hle)))⟩

/-- Settles O9: the length, the magic and the region's end decide in this order. -/
theorem pureParseSteps : Obligations.PureParseSteps := by
  intro bytes
  refine ⟨parse_short, fun hlen => ⟨parse_of_wrong_magic hlen, fun hm => ?_⟩⟩
  rw [parse_of_magic hlen hm]
  exact ⟨fun hlt => locateRegion_truncated hlt, fun hle => locateRegion_parsed hle⟩

/-- Settles O10: the source's parse is that of the bytes it holds, and each of its results gives PARSE's next state. -/
theorem parseRefinesPureParse : Obligations.ParseRefinesPureParse := by
  intro s bytes hlen hread
  have hp := parseSource_eq_parse hlen hread
  match hr : parse bytes with
  | .failed .formatError | .failed .truncatedInput => exact exec_parse_of_failed (hr ▸ hp)
  | .parsed hd a b => exact exec_parse_of_parsed (hr ▸ hp)

/-- Settles O12: the bounds by arithmetic; with the magic in place the located region decides, and it is in bounds. -/
theorem offsetBounds : Obligations.OffsetBounds := by
  refine ⟨offset_bounds, fun bytes hlen hm => ?_⟩
  rw [parse_of_magic hlen hm]
  exact ⟨fun heq => ⟨_, _, _, locateRegion_parsed heq.le⟩, fun hlt => locateRegion_truncated hlt,
    fun _ _ _ => locateRegion_in_bounds⟩

/-- Settles O13: the two sources have the same parse, and no outcome of PARSE writes the source. -/
theorem parseReadsSixBytes : Obligations.ParseReadsSixBytes := by
  intro s m hagree
  have hparse : parseSource { s with src := m } = parseSource s :=
    parseSource_congr rfl fun a ha => by simp only [srcRead, hagree a ha]
  match hp : parseSource s with
  | none => rw [exec_parse_of_unwritten hp, exec_parse_of_unwritten (hparse.trans hp)]
  | some (.failed e) =>
    rw [exec_parse_of_failed hp, exec_parse_of_failed (hparse.trans hp)]
    rfl
  | some (.parsed hd a b) =>
    rw [exec_parse_of_parsed hp, exec_parse_of_parsed (hparse.trans hp)]
    rfl

/-- Settles O14: PARSE keeps its input, so the second parse is the first, and it writes the same values again. -/
theorem parseIsIdempotent : Obligations.ParseIsIdempotent := by
  intro s t h
  have hin := exec_sameInputs h
  have hparse : parseSource t = parseSource s := parseSource_congr hin.srcLen fun a _ => hin.sameSource a
  rcases exec_parse_cases h with ⟨e, hp, rfl⟩ | ⟨hd, a, b, hp, rfl⟩
  · exact exec_parse_of_failed (hparse.trans hp)
  · exact exec_parse_of_parsed (hparse.trans hp)

/-- Settles O15: each next state of PARSE is an update of the nine registers, and the source is input state. -/
theorem parseFrame : Obligations.ParseFrame := by
  intro s t h
  refine ⟨?_, (exec_sameInputs h).sameSource⟩
  rcases exec_parse_cases h with ⟨e, -, rfl⟩ | ⟨hd, a, b, -, rfl⟩ <;> rfl

end Sys2Proof.Machine
end

-- ==== Proofs of the family 41_tile_decoder ====
section
/-! PROOFS. The cells of a decoded tile and their inverse, the tiles of a region, DECODE_ALL as a function of its region, then the
statements of spec/41_tile_decoder.md. -/

namespace Sys2Proof.Machine

open Sys2Proof.Claims

/-! ## The cells of a decoded tile -/

section Cells

variable {b d : Vector Byte 16} {y x : Nat}

/-- A cell is the pair of its two plane bits (R102 (a)). -/
theorem decodeTile_cell_eq_append (b : Vector Byte 16) (hy : y < 8) (hx : x < 8) :
    (decodeTile b)[y][x] = BitVec.ofBool (b[8 + y].getLsbD (7 - x)) ++ BitVec.ofBool (b[y].getLsbD (7 - x)) := by
  rw [decodeTile_getElem, pixelIndex_eq_append]

/-- The value of a cell is R100's sum of its two plane bits. -/
theorem decodeTile_cell_toNat (b : Vector Byte 16) (hy : y < 8) (hx : x < 8) :
    (decodeTile b)[y][x].toNat = planeIndex b[y] b[8 + y] x := by
  rw [decodeTile_getElem, pixelIndex_toNat_eq_planeIndex]

/-- A cell depends on one bit of each of its two bytes (R102 (c)). -/
theorem decodeTile_cell_congr (hy : y < 8) (hx : x < 8) (h1 : b[y].getLsbD (7 - x) = d[y].getLsbD (7 - x))
    (h2 : b[8 + y].getLsbD (7 - x) = d[8 + y].getLsbD (7 - x)) : (decodeTile b)[y][x] = (decodeTile d)[y][x] := by
  rw [decodeTile_cell_eq_append b hy hx, decodeTile_cell_eq_append d hy hx, h1, h2]

/-- A row depends on its two bytes only (R102 (c)). -/
theorem decodeTile_row_congr (hy : y < 8) (h1 : b[y] = d[y]) (h2 : b[8 + y] = d[8 + y]) :
    (decodeTile b)[y] = (decodeTile d)[y] :=
  Vector.ext fun x hx => decodeTile_cell_congr hy hx (by rw [h1]) (by rw [h2])

/-- Which of the four indices a pair of plane bits is (R102 (b)). -/
theorem planeBits_eq_iff : ∀ p q : Bool,
    (BitVec.ofBool q ++ BitVec.ofBool p = 0#2 ↔ p = false ∧ q = false) ∧
    (BitVec.ofBool q ++ BitVec.ofBool p = 1#2 ↔ p = true ∧ q = false) ∧
    (BitVec.ofBool q ++ BitVec.ofBool p = 2#2 ↔ p = false ∧ q = true) ∧
    (BitVec.ofBool q ++ BitVec.ofBool p = 3#2 ↔ p = true ∧ q = true) := by
  decide

/-- Exchanging the two bits of a pair exchanges the indices 1 and 2 (R102 (d)). -/
theorem planeBits_swap : ∀ p q : Bool,
    (BitVec.ofBool q ++ BitVec.ofBool p = 0#2 → BitVec.ofBool p ++ BitVec.ofBool q = 0#2) ∧
    (BitVec.ofBool q ++ BitVec.ofBool p = 1#2 → BitVec.ofBool p ++ BitVec.ofBool q = 2#2) ∧
    (BitVec.ofBool q ++ BitVec.ofBool p = 2#2 → BitVec.ofBool p ++ BitVec.ofBool q = 1#2) ∧
    (BitVec.ofBool q ++ BitVec.ofBool p = 3#2 → BitVec.ofBool p ++ BitVec.ofBool q = 3#2) := by
  decide

/-- With the planes swapped a cell is the swapped pair (R102 (d)). -/
theorem decodeTile_swap_planes (hy : y < 8) (hx : x < 8) (h : ∀ k (hk : k < 8), d[k] = b[8 + k] ∧ d[8 + k] = b[k]) :
    (decodeTile d)[y][x] = BitVec.ofBool (b[y].getLsbD (7 - x)) ++ BitVec.ofBool (b[8 + y].getLsbD (7 - x)) := by
  obtain ⟨h1, h2⟩ := h y hy
  rw [decodeTile_cell_eq_append d hy hx, h1, h2]

/-- With the bits of every byte reversed the tile is mirrored left to right (R102 (d)). -/
theorem decodeTile_reverse_bits (hy : y < 8) (hx : x < 8)
    (h : ∀ k (hk : k < 16), ∀ j < 8, d[k].getLsbD j = b[k].getLsbD (7 - j)) :
    (decodeTile d)[y][x] = (decodeTile b)[y][7 - x] := by
  have hj : 7 - x < 8 := Nat.lt_succ_of_le (Nat.sub_le ..)
  rw [decodeTile_cell_eq_append d hy hx, decodeTile_cell_eq_append b hy hj, h _ _ _ hj, h _ _ _ hj]

/-- With the bytes of each plane reversed the tile is flipped top to bottom (R102 (d)). -/
theorem decodeTile_reverse_bytes (hy : y < 8) (hx : x < 8) (h : ∀ k (hk : k < 8), d[k] = b[7 - k] ∧ d[8 + k] = b[15 - k]) :
    (decodeTile d)[y][x] = (decodeTile b)[7 - y][x] := by
  obtain ⟨h1, h2⟩ := h y hy
  have hplane2 : b[15 - y] = b[8 + (7 - y)] := getElem_congr_idx (by omega)
  rw [decodeTile_cell_eq_append d hy hx, decodeTile_cell_eq_append b (by omega) hx, h1, h2, hplane2]

end Cells

/-! ## The inverse of `decodeTile` -/

/-- The byte of plane `p` that gives the row: column `x` in bit `7 - x` (R100). -/
def planeByte (row : Vector ColourIndex 8) (p : Nat) : Byte :=
  BitVec.ofFnLE fun j : Fin 8 => row[7 - j.val].getLsbD p

/-- The chunk of a tile: the eight bytes of plane 1, then the eight of plane 2 (R100). -/
def encodeTile (tile : Tile) : Vector Byte 16 :=
  Vector.ofFn fun k : Fin 16 => planeByte (tile[k.val % 8]'(Nat.mod_lt _ (by decide))) (k.val / 8)

theorem planeByte_getLsbD (row : Vector ColourIndex 8) (p : Nat) {x : Nat} (hx : x < 8) :
    (planeByte row p).getLsbD (7 - x) = row[x].getLsbD p := by
  have hj : 7 - x < 8 := by omega
  have hcolumn : row[7 - (7 - x)] = row[x] := getElem_congr_idx (by omega)
  simp only [planeByte, BitVec.getLsbD_ofFnLE, hj, dite_true, hcolumn]

theorem encodeTile_plane1 (tile : Tile) {y : Nat} (hy : y < 8) : (encodeTile tile)[y] = planeByte tile[y] 0 := by
  simp [encodeTile, Nat.mod_eq_of_lt hy, Nat.div_eq_of_lt hy]

theorem encodeTile_plane2 (tile : Tile) {y : Nat} (hy : y < 8) : (encodeTile tile)[8 + y] = planeByte tile[y] 1 := by
  have hrow : (8 + y) % 8 = y := by omega
  have hplane : (8 + y) / 8 = 1 := by omega
  simp [encodeTile, hrow, hplane]

/-- Two bytes with the same bits, counted by column, are equal. -/
theorem byte_ext_columns {p q : Byte} (h : ∀ x < 8, p.getLsbD (7 - x) = q.getLsbD (7 - x)) : p = q := by
  refine BitVec.eq_of_getLsbD_eq fun j hj => ?_
  have hcolumn : 7 - (7 - j) = j := by omega
  simpa only [hcolumn] using h (7 - j) (by omega)

/-- Two chunks with the same bytes in both planes are equal. -/
theorem chunk_ext_planes {b d : Vector Byte 16} (h1 : ∀ y (hy : y < 8), b[y] = d[y])
    (h2 : ∀ y (hy : y < 8), b[8 + y] = d[8 + y]) : b = d := by
  refine Vector.ext fun k hk => ?_
  rcases lt_or_ge k 8 with hlow | hhigh
  · exact h1 k hlow
  · obtain ⟨y, rfl⟩ := Nat.exists_eq_add_of_le hhigh
    exact h2 y (by omega)

/-- The two bits of a colour index, put together again. -/
theorem append_bits_eq_self : ∀ v : ColourIndex, BitVec.ofBool (v.getLsbD 1) ++ BitVec.ofBool (v.getLsbD 0) = v := by
  decide

/-- The two bits of a pair of plane bits. -/
theorem planeBits_getLsbD : ∀ p q : Bool,
    (BitVec.ofBool q ++ BitVec.ofBool p).getLsbD 0 = p ∧ (BitVec.ofBool q ++ BitVec.ofBool p).getLsbD 1 = q := by
  decide

theorem encodeTile_decodeTile (b : Vector Byte 16) : encodeTile (decodeTile b) = b := by
  refine chunk_ext_planes (fun y hy => byte_ext_columns fun x hx => ?_) (fun y hy => byte_ext_columns fun x hx => ?_)
  · rw [encodeTile_plane1 _ hy, planeByte_getLsbD _ _ hx, decodeTile_cell_eq_append b hy hx, (planeBits_getLsbD _ _).1]
  · rw [encodeTile_plane2 _ hy, planeByte_getLsbD _ _ hx, decodeTile_cell_eq_append b hy hx, (planeBits_getLsbD _ _).2]

theorem decodeTile_encodeTile (tile : Tile) : decodeTile (encodeTile tile) = tile := by
  refine Vector.ext fun y hy => Vector.ext fun x hx => ?_
  rw [decodeTile_cell_eq_append _ hy hx, encodeTile_plane1 _ hy, encodeTile_plane2 _ hy, planeByte_getLsbD _ _ hx,
    planeByte_getLsbD _ _ hx, append_bits_eq_self]

/-! ## The tiles of a region -/

section Regions

variable {region other : List Byte} {i : Nat}

/-- Every whole record of a region is a chunk (R103). -/
theorem exists_record (hi : i < region.length / 16) :
    ∃ chunk : Vector Byte 16, ∀ k (hk : k < 16), region[16 * i + k]? = some chunk[k] := by
  have hrecord : ∀ k < 16, 16 * i + k < region.length := fun k hk => by omega
  refine ⟨Vector.ofFn fun k : Fin 16 => region[16 * i + k.val]'(hrecord k.val k.isLt), fun k hk => ?_⟩
  rw [Vector.getElem_ofFn, List.getElem?_eq_getElem (hrecord k hk)]

/-- The bytes after the last whole record decide nothing (R103). -/
theorem decodeAll_congr (hlen : other.length = region.length)
    (h : ∀ k < 16 * (region.length / 16), other[k]? = region[k]?) : decodeAll other = decodeAll region := by
  refine List.ext_getElem? fun i => ?_
  rcases lt_or_ge i (region.length / 16) with hi | hi
  · obtain ⟨chunk, hchunk⟩ := exists_record hi
    rw [decodeAll_getElem? region i chunk hchunk,
      decodeAll_getElem? other i chunk fun k hk => (h _ (by omega)).trans (hchunk k hk)]
  · rw [List.getElem?_eq_none (by rwa [decodeAll_length, hlen]), List.getElem?_eq_none (by rwa [decodeAll_length])]

/-- Each cell of each tile, from the two bytes of its row (R103, R100). -/
theorem decodeAll_cell_toNat (hi : i < (decodeAll region).length) {y x : Nat} (hy : y < 8) (hx : x < 8) {p1 p2 : Byte}
    (h1 : region[16 * i + y]? = some p1) (h2 : region[16 * i + (8 + y)]? = some p2) :
    (decodeAll region)[i][y][x].toNat = planeIndex p1 p2 x := by
  obtain ⟨chunk, hchunk⟩ := exists_record (decodeAll_length region ▸ hi)
  have htile : (decodeAll region)[i] = decodeTile chunk :=
    (List.getElem_eq_iff hi).2 (decodeAll_getElem? region i chunk hchunk)
  obtain rfl : p1 = chunk[y] := Option.some.inj (h1.symm.trans (hchunk y (by omega)))
  obtain rfl : p2 = chunk[8 + y] := Option.some.inj (h2.symm.trans (hchunk (8 + y) (by omega)))
  simp only [htile, decodeTile_cell_toNat chunk hy hx]

end Regions

/-! ## DECODE_ALL by its region -/

section Rules

variable {s t : State}

/-- A run of `n` whole records gives `n` tiles (R103). -/
theorem decodeAll_length_of_srcRun {a n : Nat} {region : List Byte} (hr : srcRun s a (16 * n) = some region) :
    (decodeAll region).length = n := by
  rw [decodeAll_length, srcRun_length hr, Nat.mul_div_cancel_left _ (by decide)]

theorem exec_decodeAll_out_of_bounds (hb : ¬ (s.chrStart.toNat ≤ s.chrEnd.toNat ∧ s.chrEnd.toNat ≤ s.srcLen.toNat)) :
    exec .decodeAll s = .next { s with err := .truncatedInput, tile := [], tileCount := 0#32 } := by
  rw [exec, execDecodeAll, decodeStage, if_pos (descriptorInBounds_eq_false.2 hb)]
  rfl

/-- The region's whole records, as many as `regionCount` says, become the tile store (R104). -/
theorem exec_decodeAll_of_region (hb : s.chrStart.toNat ≤ s.chrEnd.toNat ∧ s.chrEnd.toNat ≤ s.srcLen.toNat)
    {region : List Byte} (hr : srcRun s s.chrStart.toNat (16 * regionCount s) = some region) :
    exec .decodeAll s =
      .next { s with err := .none, tile := decodeAll region, tileCount := BitVec.ofNat 32 (regionCount s) } := by
  have hr' : srcRun s s.chrStart.toNat (Config.tileBytes * regionTiles s) = some region := hr
  rw [exec, execDecodeAll, decodeStage, if_neg (ne_false_of_eq_true (descriptorInBounds_eq_true.2 hb)), hr',
    ← decodeAll_length_of_srcRun hr]
  rfl

/-- Every next state of DECODE_ALL, as R104 writes it. -/
theorem exec_decodeAll_cases (h : exec .decodeAll s = .next t) :
    (¬ (s.chrStart.toNat ≤ s.chrEnd.toNat ∧ s.chrEnd.toNat ≤ s.srcLen.toNat) ∧
      t = { s with err := .truncatedInput, tile := [], tileCount := 0#32 }) ∨
    ∃ region, t = { s with err := .none, tile := decodeAll region, tileCount := BitVec.ofNat 32 (regionCount s) } := by
  rcases decodeStage_cases h with ⟨hb, -⟩ | ⟨hb, region, hr, -⟩
  · have hb' := descriptorInBounds_eq_false.1 hb
    rw [exec_decodeAll_out_of_bounds hb'] at h
    cases h
    exact .inl ⟨hb', rfl⟩
  · rw [exec_decodeAll_of_region (descriptorInBounds_eq_true.1 hb) hr] at h
    cases h
    exact .inr ⟨region, rfl⟩

/-- A tile count is less than 2^28 (R44). -/
theorem regionCount_lt (s : State) : regionCount s < 2 ^ 28 := by
  have hend := s.chrEnd.isLt
  unfold regionCount
  omega

theorem srcRun_zero (s : State) : srcRun s 0 0 = some [] := by
  rw [srcRun, if_pos (Nat.zero_le _), memRun_zero]

/-- An empty descriptor at 0 gives no tile (R107). -/
theorem exec_decodeAll_of_zero_descriptor (ha : s.chrStart = 0#32) (hb : s.chrEnd = 0#32) :
    exec .decodeAll s = .next { s with err := .none, tile := [], tileCount := 0#32 } := by
  have hcount : regionCount s = 0 := by
    rw [regionCount, ha, hb]
    rfl
  have hbounds : s.chrStart.toNat ≤ s.chrEnd.toNat ∧ s.chrEnd.toNat ≤ s.srcLen.toNat := by
    rw [ha, hb]
    exact ⟨le_rfl, Nat.zero_le _⟩
  have hrun : srcRun s s.chrStart.toNat (16 * regionCount s) = some [] := by
    rw [hcount, ha]
    exact srcRun_zero s
  rw [exec_decodeAll_of_region hbounds hrun, hcount]
  rfl

/-- The descriptor that a successful PARSE leaves, on naturals (R80, R82). -/
theorem parseDone_descriptor (s : State) (m0 m1 m2 m3 prg chr : Byte) :
    (parseDone s m0 m1 m2 m3 prg chr).chrStart.toNat = chrStartOf prg ∧
    (parseDone s m0 m1 m2 m3 prg chr).chrEnd.toNat = chrEndOf prg chr := by
  obtain ⟨-, hstart, -, hend, -⟩ := offset_bounds prg chr
  exact ⟨Nat.mod_eq_of_lt (hstart.trans_lt (by decide)), Nat.mod_eq_of_lt (hend.trans_lt (by decide))⟩

/-- The tile count of the region that a successful PARSE leaves (R107). -/
theorem regionCount_parseDone (s : State) (m0 m1 m2 m3 prg chr : Byte) :
    regionCount (parseDone s m0 m1 m2 m3 prg chr) = chr.toNat * 512 := by
  obtain ⟨hstart, hend⟩ := parseDone_descriptor s m0 m1 m2 m3 prg chr
  obtain ⟨-, -, -, -, -, hlength, -⟩ := offset_bounds prg chr
  rw [regionCount, hstart, hend, hlength]
  omega

/-- A DECODE_ALL that answers after a successful PARSE decodes all of its region (R107). -/
theorem exec_decodeAll_after_parseDone {m0 m1 m2 m3 prg chr : Byte} (hfits : chrEndOf prg chr ≤ s.srcLen.toNat)
    (h : exec .decodeAll (parseDone s m0 m1 m2 m3 prg chr) = .next t) :
    t.err = .none ∧ t.tileCount.toNat = chr.toNat * 512 ∧ t.tileCount.toNat ≤ 130560 := by
  rcases exec_decodeAll_cases h with ⟨hout, -⟩ | ⟨region, rfl⟩
  · obtain ⟨hstart, hend⟩ := parseDone_descriptor s m0 m1 m2 m3 prg chr
    rw [hstart, hend] at hout
    exact absurd ⟨chrStartOf_le_chrEndOf prg chr, hfits⟩ hout
  · have hchr : chr.toNat < 256 := chr.isLt
    refine ⟨rfl, ?_⟩
    simp only [regionCount_parseDone, BitVec.toNat_ofNat]
    omega

end Rules

/-! ## The statements -/

/-- Settles O18: the cells by their plane bits; `encodeTile` is the inverse on both sides. -/
theorem decodeTileIsBijective : Obligations.DecodeTileIsBijective :=
  ⟨fun chunk _ _ => decodeTile_cell_toNat chunk,
    Function.bijective_iff_has_inverse.2 ⟨encodeTile, encodeTile_decodeTile, decodeTile_encodeTile⟩⟩

/-- Settles O19: a cell is the pair of its plane bits, and each clause says what happens to that pair. -/
theorem decodeTileMirrors : Obligations.DecodeTileMirrors := by
  intro b d y x hy hx
  have hcell := decodeTile_cell_eq_append b hy hx
  obtain ⟨h0, h1, h2, h3⟩ := planeBits_eq_iff (b[y].getLsbD (7 - x)) (b[8 + y].getLsbD (7 - x))
  refine ⟨hcell, hcell ▸ h0, hcell ▸ h1, hcell ▸ h2, hcell ▸ h3, decodeTile_row_congr hy, decodeTile_cell_congr hy hx, ?_,
    decodeTile_reverse_bits hy hx, decodeTile_reverse_bytes hy hx⟩
  intro hswap
  rw [hcell, decodeTile_swap_planes hy hx hswap]
  exact planeBits_swap _ _

/-- Settles O20: `PIX` becomes the tile of `CHUNK`, whose cells are R101's sums. -/
theorem decodeTileWritesPix : Obligations.DecodeTileWritesPix := by
  intro s
  exact ⟨decodeTile s.chunk, rfl, fun _ _ => decodeTile_cell_toNat s.chunk⟩

/-- Settles O21: the count, the tile of each record, and that the bytes after the last record decide nothing. -/
theorem pureDecodeAll : Obligations.PureDecodeAll := by
  intro region
  refine ⟨decodeAll_length region, fun i chunk _ => decodeAll_getElem? region i chunk, fun other hlen htake => ?_,
    fun hshort => ?_⟩
  · refine decodeAll_congr hlen fun k hk => ?_
    rw [← List.getElem?_take_of_lt hk, htake, List.getElem?_take_of_lt hk]
  · rw [← List.length_eq_zero_iff, decodeAll_length, Nat.div_eq_of_lt hshort]

/-- Settles O22: the descriptor decides; a written region is a run of bytes, and its records are the tiles. -/
theorem decodeAllOutcomes : Obligations.DecodeAllOutcomes := by
  intro s hwf
  refine ⟨exec_decodeAll_out_of_bounds, fun hse hel hwritten => ?_⟩
  have hle : s.chrStart.toNat + 16 * regionCount s ≤ s.srcLen.toNat := region_in_bounds ⟨hse, hel⟩
  obtain ⟨region, hr⟩ := Option.isSome_iff_exists.1 ((srcRun_isSome hwf hle).2 hwritten)
  obtain ⟨-, hread⟩ := (srcRun_eq_some hwf hle).1 hr
  have hcount := decodeAll_length_of_srcRun hr
  refine ⟨decodeAll region, exec_decodeAll_of_region ⟨hse, hel⟩ hr, hcount, (regionCount_lt s).trans (by decide), ?_⟩
  intro i y x hi hy hx p1 p2 hp1 hp2
  have hbyte : ∀ k < 16, region[16 * i + k]? = srcRead s (s.chrStart.toNat + 16 * i + k) := fun k hk => by
    rw [← hread _ (by omega), Nat.add_assoc]
  exact decodeAll_cell_toNat hi hy hx ((hbyte y (by omega)).trans hp1)
    ((hbyte (8 + y) (by omega)).trans (by rwa [← Nat.add_assoc]))

/-- Settles O25: a successful PARSE leaves R82's offsets, within the source; a failed one the empty descriptor. -/
theorem decodeAllAfterParse : Obligations.DecodeAllAfterParse := by
  intro s t h
  rcases exec_parse_cases h with ⟨e, -, rfl⟩ | ⟨hd, a, b, hp, rfl⟩
  · have hraised : (parseFailed s (errOf e)).err ≠ .none := by cases e <;> exact ErrCode.noConfusion
    exact ⟨fun hnone => absurd hnone hraised,
      fun _ => ⟨rfl, rfl, _, exec_decodeAll_of_zero_descriptor rfl rfl, rfl, rfl, rfl⟩⟩
  · refine ⟨fun _ => ?_, fun hne => absurd rfl hne⟩
    obtain ⟨-, -, -, -, -, -, -, -, -, rfl, hfits⟩ := parseSource_parsed hp
    obtain ⟨hstart, hend⟩ := parseDone_descriptor s hd.magic0 hd.magic1 hd.magic2 hd.magic3 hd.prg hd.chr
    obtain ⟨hlow, -, hle, -, -, hlength, hmod, -⟩ := offset_bounds hd.prg hd.chr
    rw [hstart, hend]
    exact ⟨hlow, hle, hfits, hlength, hmod, fun _ => exec_decodeAll_after_parseDone hfits⟩

/-- Settles O26: both next states of DECODE_ALL are updates of the three registers, and the source is input state. -/
theorem decodeAllFrame : Obligations.DecodeAllFrame := by
  intro s t h
  refine ⟨?_, (exec_sameInputs h).sameSource⟩
  rcases exec_decodeAll_cases h with ⟨-, rfl⟩ | ⟨region, rfl⟩ <;> rfl

/-- Settles O34: each command is one update of its own registers, and the source is input state. -/
theorem directOperationFrames : Obligations.DirectOperationFrames := by
  intro s t
  refine ⟨?decodeTile, ?mapColor, ?compose⟩ <;> refine fun h => ⟨?_, (exec_sameInputs h).sameSource⟩
  case decodeTile | mapColor =>
    cases h
    rfl
  case compose =>
    obtain ⟨-, rfl⟩ := composeStage_cases h
    rfl

end Sys2Proof.Machine
end

-- ==== Proofs of the family 42_sheet_compositor ====
section
/-! PROOFS. The colour map, where the blocks of the tiles lie in the grid, the cells of a composed grid, COMPOSE as an update of
the grid, then the statements of spec/42_sheet_compositor.md. -/

namespace Sys2Proof.Machine

/-! ## The colour map -/

/-- The colour map increases strictly on the four indices (R120). -/
theorem mapColor_lt_mapColor : ∀ j < 4, ∀ i < j, (mapColor i).toNat < (mapColor j).toNat := by
  decide

/-- The colour map on a byte, all eight bits of it compared (R121). -/
theorem mapColor_toNat (v : Byte) :
    mapColor v.toNat = if v = 0#8 then 0#8 else if v = 1#8 then 117#8 else if v = 2#8 then 188#8
      else if v = 3#8 then 255#8 else 0#8 := by
  split_ifs with h0 h1 h2 h3
  case neg => exact mapColor_of_le _ (by bv_omega)
  all_goals
    subst v
    rfl

section Geometry

variable {n t i y x r c : Nat}

/-! ## The number of tile rows -/

/-- `rowCount` is the least number of rows of `t` tiles that hold `n` tiles (R122). -/
theorem rowCount_le_iff (ht : 1 ≤ t) {q : Nat} : rowCount n t ≤ q ↔ n ≤ q * t := by
  rw [Nat.mul_comm]
  exact ceilDiv_le_iff_le_mul ht

theorem lt_rowCount_iff (ht : 1 ≤ t) {q : Nat} : q < rowCount n t ↔ q * t < n := by
  rw [← not_le, rowCount_le_iff ht, not_le]

theorem rowCount_zero (ht : 1 ≤ t) : rowCount 0 t = 0 :=
  Nat.le_zero.1 ((rowCount_le_iff ht).2 (Nat.zero_le _))

/-- A last row that is not full is one row more than the full ones (R124 (c)). -/
theorem rowCount_of_mod_ne_zero (ht : 1 ≤ t) (h : n % t ≠ 0) : rowCount n t = n / t + 1 := by
  have hn : n / t * t + n % t = n := Nat.div_add_mod' n t
  have hmod : n % t < t := Nat.mod_lt n ht
  refine le_antisymm ((rowCount_le_iff ht).2 ?_) ((lt_rowCount_iff ht).2 ?_)
  · rw [Nat.succ_mul]
    omega
  · omega

/-! ## The block of a tile -/

theorem block_div (hy : y < 8) (a : Nat) : (y + a * 8) / 8 = a := by
  omega

theorem block_mod (hy : y < 8) (a : Nat) : (y + a * 8) % 8 = y := by
  omega

/-- The destination of a pixel of tile `i` lies in block number `i`, counted by rows of `t` (R122). -/
theorem block_of_pixel (i : Nat) (hy : y < 8) (hx : x < 8) :
    (y + i / t * 8) / 8 * t + (x + i % t * 8) / 8 = i := by
  rw [block_div hy, block_div hx, Nat.div_add_mod']

/-- Every pixel lands in the grid (R124 (a)). -/
theorem pixel_in_grid (ht : 1 ≤ t) (hi : i < n) (hy : y < 8) (hx : x < 8) :
    x + i % t * 8 < 8 * t ∧ y + i / t * 8 < 8 * rowCount n t := by
  have hcolumn : i % t < t := Nat.mod_lt i ht
  have hrow : i / t < rowCount n t := (lt_rowCount_iff ht).2 ((Nat.div_mul_le_self i t).trans_lt hi)
  omega

/-- A cell that some pixel of one of `n` tiles lands on (R122). -/
def Covered (n t r c : Nat) : Prop :=
  ∃ i y x, i < n ∧ y < 8 ∧ x < 8 ∧ r = y + i / t * 8 ∧ c = x + i % t * 8

/-- A cell of the grid is covered exactly when the number of its block is that of a tile. -/
theorem covered_iff (hc : c < 8 * t) : Covered n t r c ↔ r / 8 * t + c / 8 < n := by
  constructor
  · rintro ⟨i, y, x, hi, hy, hx, rfl, rfl⟩
    rwa [block_of_pixel i hy hx]
  · intro hi
    have hcolumn : c / 8 < t := Nat.div_lt_of_lt_mul hc
    obtain ⟨hdiv, hmod⟩ : (r / 8 * t + c / 8) / t = r / 8 ∧ (r / 8 * t + c / 8) % t = c / 8 :=
      (Nat.div_mod_unique (Nat.zero_lt_of_lt hcolumn)).2 ⟨by rw [Nat.add_comm, Nat.mul_comm], hcolumn⟩
    refine ⟨_, r % 8, c % 8, hi, Nat.mod_lt r (by decide), Nat.mod_lt c (by decide), ?_, ?_⟩
    · rw [hdiv, Nat.mod_add_div']
    · rw [hmod, Nat.mod_add_div']

/-- Block column `b` of tile row `a` is past the last tile exactly in the last row, when that is not full, from its first free
column on (R124 (c)). -/
theorem block_uncovered_iff (ht : 1 ≤ t) {a b : Nat} (ha : a < rowCount n t) (hb : b < t) :
    ¬ a * t + b < n ↔ n % t ≠ 0 ∧ a = rowCount n t - 1 ∧ n % t ≤ b := by
  have hn : n / t * t + n % t = n := Nat.div_add_mod' n t
  have hlt : a * t < n := (lt_rowCount_iff ht).1 ha
  constructor
  · intro hpast
    have hdiv : n / t = a := by
      refine Nat.div_eq_of_lt_le hlt.le ?_
      rw [Nat.succ_mul]
      omega
    rw [hdiv] at hn
    have hmod : n % t ≠ 0 := by omega
    refine ⟨hmod, ?_, by omega⟩
    rw [rowCount_of_mod_ne_zero ht hmod, hdiv, Nat.add_sub_cancel]
  · rintro ⟨hmod, rfl, hle⟩
    rw [rowCount_of_mod_ne_zero ht hmod, Nat.add_sub_cancel]
    omega

end Geometry

/-! ## The cells of a composed grid -/

section Cells

variable {tiles : List Tile} {t : Nat}

theorem gridCell_eq_bind (g : List (List Byte)) (r c : Nat) : gridCell g r c = g[r]?.bind (·[c]?) := by
  unfold gridCell
  cases g[r]? <;> rfl

/-- The pixel `(x, y)` of tile `i` is at its destination, through the colour map (R122). -/
theorem gridCell_compose_of_tile (ht : 1 ≤ t) {i y x : Nat} {tile : Tile} (hi : tiles[i]? = some tile) (hy : y < 8)
    (hx : x < 8) : gridCell (compose tiles t) (y + i / t * 8) (x + i % t * 8) = some (mapColor tile[y][x].toNat) := by
  obtain ⟨hlt, -⟩ := List.getElem?_eq_some_iff.1 hi
  obtain ⟨hc, hr⟩ := pixel_in_grid ht hlt hy hx
  rw [gridCell_eq_bind, compose_getElem tiles t _ _ hr hc]
  simp only [block_of_pixel i hy hx, hi, block_mod hy, block_mod hx]

/-- A cell that no tile covers is background (R122, R125). -/
theorem gridCell_compose_of_uncovered {r c : Nat} (hr : r < 8 * rowCount tiles.length t) (hc : c < 8 * t)
    (h : ¬ Covered tiles.length t r c) : gridCell (compose tiles t) r c = some 0#8 := by
  have hnone : tiles[r / 8 * t + c / 8]? = none :=
    List.getElem?_eq_none (not_lt.1 (mt (covered_iff hc).2 h))
  rw [gridCell_eq_bind, compose_getElem tiles t r c hr hc]
  simp only [hnone]

theorem compose_nil (ht : 1 ≤ t) : compose [] t = [] := by
  rw [← List.length_eq_zero_iff, compose_length, List.length_nil, rowCount_zero ht]

end Cells

/-! ## COMPOSE and RUN -/

section Rules

variable {s : State}

/-- `TPR` is not 0 exactly when there is at least one tile per row, as R122 asks. -/
theorem one_le_tpr (ht : s.tpr ≠ 0#16) : 1 ≤ s.tpr.toNat :=
  Nat.pos_of_ne_zero fun h0 => ht (BitVec.eq_of_toNat_eq h0)

theorem exec_compose_of_tpr_zero (ht : s.tpr = 0#16) : exec .compose s = .refused .tilesPerRowZero :=
  if_pos ht

theorem exec_run_of_tpr_zero (ht : s.tpr = 0#16) : exec .run s = .refused .tilesPerRowZero :=
  if_pos ht

theorem exec_compose_of_tpr_ne_zero (ht : s.tpr ≠ 0#16) : exec .compose s = .next s.setComposed :=
  if_neg ht

theorem setComposed_of_no_tiles (ht : s.tpr ≠ 0#16) (hn : s.tiles = []) :
    s.setComposed = s.setGrid [] (8 * s.tpr.toNat) 0 0 := by
  have h1 := one_le_tpr ht
  simp only [State.setComposed, hn, compose_nil h1, List.length_nil, rowCount_zero h1, Config.tileDim, Nat.mul_zero]

/-- Under the invariant every tile of the store exists (R22). -/
theorem State.Inv.tiles_eq (hi : s.Inv) : s.tiles = s.tile := by
  rw [State.tiles, ← hi.tileCountIsLength, List.take_length]

theorem setComposed_grid (hi : s.Inv) : s.setComposed.grid = compose s.tile s.tpr.toNat := by
  rw [← hi.tiles_eq]
  rfl

theorem setComposed_gridW (s : State) : s.setComposed.gridW.toNat = 8 * s.tpr.toNat := by
  have htpr := s.tpr.isLt
  simp only [State.setComposed, State.setGrid_gridW, BitVec.toNat_ofNat, Config.tileDim]
  omega

/-- The height that COMPOSE stores does not wrap, because the new grid has that many rows. -/
theorem setComposed_gridH (hi : s.Inv) (ht : s.tpr ≠ 0#16) :
    s.setComposed.gridH.toNat = 8 * rowCount s.tileCount.toNat s.tpr.toNat := by
  rw [← (hi.setComposed ht).gridHeight, setComposed_grid hi, compose_length, hi.tileCountIsLength]

theorem setComposed_rows (hi : s.Inv) (ht : s.tpr ≠ 0#16) :
    s.setComposed.rows.toNat = rowCount s.tileCount.toNat s.tpr.toNat :=
  Nat.eq_of_mul_eq_mul_left (by decide) ((hi.setComposed ht).gridRows.symm.trans (setComposed_gridH hi ht))

end Rules

/-! ## The statements -/

/-- Settles O29: `rowCount` is a ceiling, and each cell is its block's tile or background. -/
theorem pureCompose : Obligations.PureCompose := by
  intro tiles t ht
  refine ⟨(rowCount_le_iff ht).1 le_rfl, fun q => (rowCount_le_iff ht).2, compose_length tiles t, compose_row_length tiles t,
    fun i y x hi => gridCell_compose_of_tile ht (List.getElem?_eq_getElem hi), fun r c hr hc h => ?_⟩
  exact gridCell_compose_of_uncovered hr hc fun ⟨i, y, x, hi, hy, hx, hdest⟩ => h i y x hi hy hx hdest

/-- Settles O30: a destination determines its block's number and the place in the block, and the blocks past the last tile are the
uncovered ones. -/
theorem tilePlacementGeometry : Obligations.TilePlacementGeometry := by
  intro n t ht
  refine ⟨fun i y x => pixel_in_grid ht, fun i j y x v w _ _ hy hx hv hw hrow hcol => ⟨?_, ?_, ?_⟩, fun r c hr hc => ?_⟩
  · rw [← block_of_pixel (t := t) i hy hx, hrow, hcol, block_of_pixel j hv hw]
  · rw [← block_mod hy (i / t), hrow, block_mod hv]
  · rw [← block_mod hx (i % t), hcol, block_mod hw]
  · exact (covered_iff hc).not.trans
      (block_uncovered_iff ht (Nat.div_lt_of_lt_mul hr) (Nat.div_lt_of_lt_mul hc))

/-- Settles O31: under the invariant COMPOSE lays out the whole tile store, and the dimensions fit their registers. -/
theorem composeOutcome : Obligations.ComposeOutcome := by
  intro s hi
  refine ⟨exec_compose_of_tpr_zero, fun ht => ⟨s.setComposed, exec_compose_of_tpr_ne_zero ht, rfl, setComposed_rows hi ht,
    setComposed_gridW s, (hi.setComposed ht).gridRows, (hi.setComposed ht).gridHeight, (hi.setComposed ht).gridWidth, ?_, ?_⟩⟩
  · intro i y x tile hy hx _ htile
    rw [setComposed_grid hi]
    exact gridCell_compose_of_tile (one_le_tpr ht) htile hy hx
  · intro r c hr hc h
    rw [setComposed_gridH hi ht, ← hi.tileCountIsLength] at hr
    rw [setComposed_gridW] at hc
    rw [setComposed_grid hi]
    refine gridCell_compose_of_uncovered hr hc fun ⟨i, y, x, hlt, hy, hx, hdest⟩ => ?_
    exact h i y x (hi.tileCountIsLength ▸ hlt) hy hx hdest

/-- Settles O27: the table by its rows, the rest by `mapColor_of_le`. -/
theorem colourMapTable : Obligations.ColourMapTable :=
  ⟨rfl, rfl, rfl, rfl, mapColor_of_le, fun i j hij hj => mapColor_lt_mapColor j hj i hij⟩

/-- Settles O28: MAPCOLOR stores the colour map's value on the byte in `CIDX`. -/
theorem mapColorWritesInten : Obligations.MapColorWritesInten := by
  intro s
  rw [← mapColor_toNat]
  rfl

/-- Settles O32: no tile exists, so the layout has no row. -/
theorem composeNoTiles : Obligations.ComposeNoTiles := by
  intro s ht hn
  have hnone : s.tiles = [] := by simp [State.tiles, hn]
  rw [exec_compose_of_tpr_ne_zero ht, setComposed_of_no_tiles ht hnone]
  rfl

/-- Settles O33: both commands look at `TPR` first. -/
theorem zeroTilesPerRowRefused : Obligations.ZeroTilesPerRowRefused :=
  fun _ ht => ⟨exec_compose_of_tpr_zero ht, exec_run_of_tpr_zero ht⟩

end Sys2Proof.Machine
end

-- ==== Proofs of the family 43_pipeline ====
section
/-! PROOFS. RUN by the outcome of PARSE, the two commands after a PARSE that succeeds, what the host's writes, loads and reads
answer, then the statements of spec/43_pipeline.md. -/

namespace Sys2Proof.Machine

open Sys2Proof.Claims

/-! ## RUN by its PARSE stage -/

section Run

variable {s t : State}

/-- A PARSE that raises leaves a RUN from the same state with PARSE's registers and no output (R141). -/
theorem exec_run_of_parse_raised (ht : s.tpr ≠ 0#16) (hparse : exec .parse s = .next t) (herr : t.err ≠ .none) :
    exec .run s = .next (outputsEmptied t) := by
  rcases parseStage_cases hparse with ⟨e, hp, rfl⟩ | ⟨hd, a, b, -, rfl⟩
  · exact execRun_of_failed ht hp
  · exact absurd rfl herr

/-- After a PARSE that succeeds, RUN goes on from PARSE's own next state (R140). -/
theorem exec_run_of_parse_done (ht : s.tpr ≠ 0#16) (hparse : exec .parse s = .next t) (herr : t.err = .none) :
    exec .run s = andThen (exec .decodeAll t) (exec .compose) := by
  rcases parseStage_cases hparse with ⟨e, -, rfl⟩ | ⟨hd, a, b, hp, rfl⟩
  · cases e <;> cases herr
  · exact execRun_of_parsed ht hp

end Run

/-! ## DECODE_ALL and COMPOSE after a successful PARSE -/

section ValidContainer

variable {s : State} {tiles : List Tile}

/-- After a successful PARSE, DECODE_ALL turns a written region into `chr * 512` tiles, each cell from its two source bytes. -/
theorem exec_decodeAll_parseDone_of_written (m0 m1 m2 m3 : Byte) {prg chr : Byte} (hwf : Memory.wf s.src = true)
    (hfits : regionEnd prg chr ≤ s.srcLen.toNat) (hwritten : Written s (regionStart prg) (chr.toNat * 8192)) :
    ∃ tiles : List Tile,
      exec .decodeAll (parseDone s m0 m1 m2 m3 prg chr) = .next ((parseDone s m0 m1 m2 m3 prg chr).setTiles tiles) ∧
      tiles.length = chr.toNat * 512 ∧
      ∀ (i y x : Nat) (hi : i < tiles.length) (hy : y < 8) (hx : x < 8) (p1 p2 : Byte),
        srcRead s (regionStart prg + 16 * i + y) = some p1 → srcRead s (regionStart prg + 16 * i + 8 + y) = some p2 →
        tiles[i][y][x].toNat = planeIndex p1 p2 x := by
  obtain ⟨hstart, hend⟩ := parseDone_descriptor s m0 m1 m2 m3 prg chr
  have hall := (decodeAllOutcomes (parseDone s m0 m1 m2 m3 prg chr) hwf).2
  have hbytes : 16 * (chr.toNat * 512) = chr.toNat * 8192 := by omega
  rw [hstart, hend, regionCount_parseDone, hbytes] at hall
  obtain ⟨tiles, hexec, hlength, -, hcells⟩ := hall (chrStartOf_le_chrEndOf prg chr) hfits hwritten
  rw [← hlength] at hexec
  exact ⟨tiles, hexec, hlength, hcells⟩

/-- COMPOSE lays out all of a new tile store, and with so few tiles no register wraps, the invariant or not (R122). -/
theorem setComposed_setTiles (ht : s.tpr ≠ 0#16) (hn : tiles.length < 2 ^ 29) :
    (s.setTiles tiles).setComposed.tileCount.toNat = tiles.length ∧
    (s.setTiles tiles).setComposed.grid = compose tiles s.tpr.toNat ∧
    (s.setTiles tiles).setComposed.rows.toNat = rowCount tiles.length s.tpr.toNat ∧
    (s.setTiles tiles).setComposed.gridH.toNat = 8 * rowCount tiles.length s.tpr.toNat := by
  have hcount : (s.setTiles tiles).tileCount.toNat = tiles.length := Nat.mod_eq_of_lt (hn.trans (by decide))
  have hall : (s.setTiles tiles).tiles = tiles := by
    rw [State.tiles, hcount]
    exact List.take_length
  have hrows : rowCount tiles.length s.tpr.toNat ≤ tiles.length := rowCount_le (one_le_tpr ht)
  refine ⟨hcount, ?_, ?_⟩
  · rw [State.setComposed, hall]
    rfl
  · simp only [State.setComposed, hall, State.setGrid_rows, State.setGrid_gridH, State.setTiles_tpr, BitVec.toNat_ofNat,
      Config.tileDim]
    omega

end ValidContainer

/-! ## The host's writes and loads -/

section Writes

variable {s : State} {x : Loc} {v : Nat} {bytes : List Byte}

theorem perform_wr_fits (hw : locWritable x = true) (hv : v < 2 ^ locWidth x) : perform (.wr x v) s = writeInput s v x :=
  writeLoc_fits hw hv

theorem perform_wr_tooWide (hw : locWritable x = true) (hv : 2 ^ locWidth x ≤ v) :
    perform (.wr x v) s = .refused (.hostValueTooWide x v) :=
  writeLoc_tooWide hw hv

theorem perform_wr_src (hv : v < 2 ^ 8) {a : Nat} (ha : a < s.srcLen.toNat) :
    perform (.wr (.src a) v) s = .next (s.setSource (memWrite s.src a (BitVec.ofNat 8 v)) s.srcLen) := by
  rw [perform_wr_fits rfl hv, writeInput, if_pos ha]

theorem perform_wr_chunk (hv : v < 2 ^ 8) {k : Nat} (hk : k < 16) :
    perform (.wr (.chunk k) v) s = .next (s.setChunk (s.chunk.set k (BitVec.ofNat 8 v) hk)) := by
  rw [perform_wr_fits rfl hv, writeInput, dif_pos hk]

theorem perform_ldSrc_of_le (hn : bytes.length ≤ s.srcCap.toNat) :
    perform (.ldSrc bytes) s = .next (s.setSource (memOfBytes 0 bytes) (BitVec.ofNat 32 bytes.length)) :=
  if_pos hn

theorem perform_ldChunk_of_length (hn : bytes.toArray.size = 16) :
    perform (.ldChunk bytes) s = .next (s.setChunk ⟨bytes.toArray, hn⟩) :=
  dif_pos hn

end Writes

/-! ## The host's reads -/

section Reads

variable {s : State}

theorem errBits_toNat (e : ErrCode) : (errBits e).toNat = errCode e := by
  cases e <;> rfl

/-- Each register is read by its own name (R142). -/
theorem readLoc_register : ∀ p ∈ registerValues s, readLoc s p.1 = some (.value p.2) := by
  simp [registerValues, readLoc, held, errBits_toNat]

theorem readLoc_chunk {k : Nat} (hk : k < 16) : readLoc s (.chunk k) = some (.value s.chunk[k].toNat) := by
  simp [readLoc, held, hk]

theorem readLoc_chunk_eq_none {k : Nat} (hk : 16 ≤ k) : readLoc s (.chunk k) = none := by
  simp [readLoc, hk]

theorem readLoc_pix {y x : Nat} (hy : y < 8) (hx : x < 8) : readLoc s (.pix y x) = some (.value s.pix[y][x].toNat) := by
  simp only [readLoc, tileCell_getElem s.pix hy hx, held]

theorem readLoc_pix_eq_none {y x : Nat} (h : 8 ≤ y ∨ 8 ≤ x) : readLoc s (.pix y x) = none := by
  simp only [readLoc, tileCell_eq_none s.pix h]

/-- A byte of the source that was written is read (R41). -/
theorem readLoc_src_of_written {a : Nat} {b : Byte} (h : srcRead s a = some b) : readLoc s (.src a) = some (.value b.toNat) := by
  obtain ⟨ha, hb⟩ := srcRead_eq_some.1 h
  simp only [readLoc, if_pos ha, hb, held]

/-- A byte of the source that nobody wrote is there and holds no value (R14). -/
theorem readLoc_src_of_unwritten {a : Nat} (ha : a < s.srcLen.toNat) (h : srcRead s a = none) :
    readLoc s (.src a) = some .noValue := by
  rw [srcRead, if_pos ha] at h
  simp only [readLoc, if_pos ha, h]

theorem readLoc_src_isSome (a : Nat) : (readLoc s (.src a)).isSome = true ↔ a < s.srcLen.toNat := by
  constructor
  · intro h
    by_contra ha
    simp [readLoc, ha] at h
  · intro ha
    cases hb : srcRead s a with
    | none => rw [readLoc_src_of_unwritten ha hb, Option.isSome_some]
    | some b => rw [readLoc_src_of_written hb, Option.isSome_some]

theorem readLoc_tile {i y x : Nat} {tile : Tile} (hy : y < 8) (hx : x < 8) (hi : i < s.tileCount.toNat)
    (htile : s.tile[i]? = some tile) : readLoc s (.tile i y x) = some (.value tile[y][x].toNat) := by
  simp only [readLoc, if_pos hi, htile, tileCell_getElem tile hy hx, held]

/-- No cell of a tile store is read past its tiles, or outside a tile's rows and columns (R22). -/
theorem readLoc_tile_eq_none {i y x : Nat} (h : s.tileCount.toNat ≤ i ∨ 8 ≤ y ∨ 8 ≤ x) :
    readLoc s (.tile i y x) = none := by
  rcases h with hi | hyx
  · simp only [readLoc, if_neg (not_lt.2 hi)]
  · cases htile : s.tile[i]? <;> simp [readLoc, htile, tileCell_eq_none _ hyx]

/-- Under the invariant every tile below `TILE_COUNT` is in the store (R22). -/
theorem State.Inv.readLoc_tile_isSome (hinv : s.Inv) (i y x : Nat) :
    (readLoc s (.tile i y x)).isSome = true ↔ i < s.tileCount.toNat ∧ y < 8 ∧ x < 8 := by
  constructor
  · intro h
    by_contra hout
    rw [readLoc_tile_eq_none (by omega)] at h
    cases h
  · rintro ⟨hi, hy, hx⟩
    rw [readLoc_tile hy hx hi (List.getElem?_eq_getElem (hinv.tileCountIsLength ▸ hi)), Option.isSome_some]

/-- Under the invariant the grid's cells are those within its dimension registers (R23). -/
theorem State.Inv.gridCell_isSome (hinv : s.Inv) (r c : Nat) :
    (gridCell s.grid r c).isSome = true ↔ r < s.gridH.toNat ∧ c < s.gridW.toNat := by
  rw [gridCell_eq_bind, ← hinv.gridHeight]
  cases hrow : s.grid[r]? with
  | none => simp [List.getElem?_eq_none_iff.1 hrow]
  | some row =>
    obtain ⟨hr, rfl⟩ := List.getElem?_eq_some_iff.1 hrow
    simp [hr, hinv.gridWidth _ (List.getElem_mem hr)]

/-- Under the invariant a sample of the grid is read as it is (R23). -/
theorem State.Inv.readLoc_grid (hinv : s.Inv) {r c : Nat} {v : Byte} (h : gridCell s.grid r c = some v) :
    readLoc s (.grid r c) = some (.value v.toNat) := by
  have hin := (hinv.gridCell_isSome r c).1 (h ▸ rfl)
  simp only [readLoc, if_pos hin, h, held]

theorem State.Inv.readLoc_grid_isSome (hinv : s.Inv) (r c : Nat) :
    (readLoc s (.grid r c)).isSome = true ↔ r < s.gridH.toNat ∧ c < s.gridW.toNat := by
  constructor
  · intro h
    by_contra hout
    simp [readLoc, hout] at h
  · intro hin
    obtain ⟨v, hv⟩ := Option.isSome_iff_exists.1 ((hinv.gridCell_isSome r c).2 hin)
    rw [hinv.readLoc_grid hv, Option.isSome_some]

end Reads

/-! ## The statements -/

/-- Settles O35: RUN raises what PARSE raises, and empties the later outputs. -/
theorem runFailureEmptiesOutputs : Obligations.RunFailureEmptiesOutputs :=
  fun _ _ => exec_run_of_parse_raised

/-- Settles O36: RUN's stages are the commands; after a failed PARSE the empty descriptor gives no tile, and no tile no row. -/
theorem runIsThePipeline : Obligations.RunIsThePipeline := by
  intro s t ht hparse
  refine ⟨fun herr u v hdecode hcompose => ?_, fun herr => ?_⟩
  · rw [exec_run_of_parse_done ht hparse herr, hdecode]
    exact hcompose
  · obtain ⟨hstart, hend, -⟩ := (decodeAllAfterParse s t hparse).2 herr
    have htpr : t.tpr = s.tpr := (exec_sameInputs hparse).tpr
    have hwidth : (BitVec.ofNat 32 (8 * t.tpr.toNat)).toNat = 8 * s.tpr.toNat := by
      have := s.tpr.isLt
      rw [htpr, BitVec.toNat_ofNat]
      omega
    refine ⟨hstart, hend, ⟨_, _, exec_decodeAll_of_zero_descriptor hstart hend, rfl, rfl,
      composeNoTiles _ (htpr ▸ ht) rfl, rfl, rfl, hwidth⟩, _, exec_run_of_parse_raised ht hparse herr, rfl, rfl⟩

/-- Settles O37: PARSE leaves the region's offsets, DECODE_ALL the tiles of its bytes, and COMPOSE lays all of them out. -/
theorem runOnValidContainer : Obligations.RunOnValidContainer := by
  intro s prg chr hwf ht hlen h0 h1 h2 h3 h4 h5 hfits hwritten
  have hparse : exec .parse s = .next (parseDone s 0x4E#8 0x45#8 0x53#8 0x1A#8 prg chr) :=
    (((parseOutcomes s).2 _ _ _ _ hlen h0 h1 h2 h3).2 prg chr ⟨rfl, rfl, rfl, rfl⟩ h4 h5).2 hfits
  obtain ⟨tiles, hdecode, hcount, hcells⟩ :=
    exec_decodeAll_parseDone_of_written 0x4E#8 0x45#8 0x53#8 0x1A#8 hwf hfits hwritten
  have hfew : tiles.length < 2 ^ 29 := by
    have hchr : chr.toNat < 256 := chr.isLt
    omega
  have hrun := (runIsThePipeline s _ ht hparse).1 rfl _ _ hdecode (exec_compose_of_tpr_ne_zero ht)
  obtain ⟨htiles, hgrid, hrows, hheight⟩ :=
    setComposed_setTiles (s := parseDone s 0x4E#8 0x45#8 0x53#8 0x1A#8 prg chr) ht hfew
  rw [hcount] at htiles hrows hheight
  refine ⟨_, hrun, rfl, htiles, hrows, setComposed_gridW _, hheight.trans (congrArg (8 * ·) hrows.symm), ?_⟩
  intro i y x hi hy hx p1 p2 hp1 hp2
  have hi' : i < tiles.length := hcount ▸ hi
  rw [hgrid, ← hcells i y x hi' hy hx p1 p2 hp1 hp2]
  exact gridCell_compose_of_tile (one_le_tpr ht) (List.getElem?_eq_getElem hi') hy hx

/-- Settles O38: each next state of RUN updates the registers of its stages only, and the source is input state. -/
theorem runFrame : Obligations.RunFrame := by
  intro s t h
  refine ⟨?_, (exec_sameInputs h).sameSource⟩
  obtain ⟨-, ⟨e, -, rfl⟩ | ⟨hd, a, b, u, -, hu, -, rfl⟩⟩ := execRun_cases h
  · rfl
  · rcases decodeStage_cases hu with ⟨-, rfl⟩ | ⟨-, region, -, rfl⟩ <;> rfl

/-- Settles O48: an existing byte is written; the width is checked before the address. -/
theorem hostWritesSourceByte : Obligations.HostWritesSourceByte := by
  intro s a v
  refine ⟨fun hwf hv ha => ⟨_, perform_wr_src hv ha, rfl, srcRead_memWrite hwf ha _⟩, fun hv ha => ?_,
    fun hv => perform_wr_tooWide rfl hv⟩
  rw [perform_wr_fits rfl hv, writeInput, if_neg (not_lt.2 ha)]

/-- Settles O51: a length within the capacity fits its register, and the new source holds exactly the bytes. -/
theorem hostLoadsSource : Obligations.HostLoadsSource := by
  intro s bytes
  exact ⟨fun hn => ⟨_, perform_ldSrc_of_le hn, rfl, toNat_ofNat_of_le hn, srcRead_memOfBytes (hn.trans_lt s.srcCap.isLt)⟩,
    fun hn => if_neg (not_le.2 hn)⟩

/-- Settles O54: one read rule for each kind of cell. -/
theorem hostReadsExistingCells : Obligations.HostReadsExistingCells := by
  intro s
  exact ⟨fun x v => readLoc_register (x, v), fun _ => readLoc_chunk, fun _ => readLoc_chunk_eq_none,
    fun _ _ => readLoc_pix, fun _ _ => readLoc_pix_eq_none, readLoc_src_isSome, fun _ _ => readLoc_src_of_written,
    fun _ => readLoc_src_of_unwritten, fun _ _ _ _ => readLoc_tile,
    fun hinv => ⟨hinv.readLoc_tile_isSome, hinv.readLoc_grid_isSome, fun _ _ _ => hinv.readLoc_grid⟩⟩

/-- Settles O47: each register's value is checked for its width and then written; `CHUNK[k]` also for its index. -/
theorem hostWritesInputRegisters : Obligations.HostWritesInputRegisters := by
  intro s v
  refine ⟨fun hv => perform_wr_fits rfl hv, fun hv => perform_wr_fits rfl hv, fun hv => perform_wr_fits rfl hv,
    fun hv => perform_wr_fits rfl hv, fun hv k hk => ?_,
    fun hv => perform_wr_tooWide rfl hv, fun hv => perform_wr_tooWide rfl hv, fun hv => perform_wr_tooWide rfl hv,
    fun hv => perform_wr_tooWide rfl hv, fun hv _ => perform_wr_tooWide rfl hv, fun hv k hk => ?_⟩
  · refine ⟨_, perform_wr_chunk hv hk, rfl, fun j hj => ?_⟩
    rw [State.setChunk_chunk, Vector.getElem_set]
    exact if_congr eq_comm rfl rfl
  · rw [perform_wr_fits rfl hv, writeInput, dif_neg (not_lt.2 hk)]

/-- Settles O52: sixteen bytes are the chunk, in their order. -/
theorem hostLoadsChunk : Obligations.HostLoadsChunk := by
  intro s bytes
  refine ⟨fun hn => ⟨_, perform_ldChunk_of_length hn, rfl, fun k hk => ?_⟩, fun hn => dif_neg hn⟩
  exact (List.getElem?_eq_getElem (hk.trans_eq hn.symm)).symm

/-- Settles O53: what the name reads as decides. -/
theorem hostReadsChangeNothing : Obligations.HostReadsChangeNothing := by
  intro s x
  refine ⟨fun v hv => ?_, fun hnone => ?_, perform_rdCmd⟩
  · rw [perform_rd, hostRd, hv]
    rfl
  · rw [perform_rd, hostRd, hnone]

end Sys2Proof.Machine
end

-- ==== Proofs of the family 60_exceptions ====
section
/-! PROOFS. The exceptions of each operation, what a refused operation says of the state, then the statements of
spec/60_exceptions.md. -/

namespace Sys2Proof.Machine

open Sys2Proof.Claims

section Rules

variable {s t : State} {r : Refusal}

/-! ## Which exception an operation ends with -/

/-- DECODE_ALL on a descriptor that lies in the buffer raises nothing (R104). -/
theorem decodeStage_err_of_in_bounds (hb : s.chrStart.toNat ≤ s.chrEnd.toNat ∧ s.chrEnd.toNat ≤ s.srcLen.toNat)
    (h : decodeStage s = .next t) : t.err = .none := by
  rcases decodeStage_cases h with ⟨hout, -⟩ | ⟨-, region, -, rfl⟩
  · exact absurd hb (descriptorInBounds_eq_false.1 hout)
  · rfl

/-- RUN raises in its PARSE stage or not at all, because the descriptor that PARSE leaves is in bounds (R141, R156). -/
theorem exec_run_raised_or_done (h : exec .run s = .next t) :
    (∃ e, t = outputsEmptied (parseFailed s (errOf e))) ∨ t.err = .none := by
  obtain ⟨-, ⟨e, -, rfl⟩ | ⟨hd, a, b, u, hp, hu, -, rfl⟩⟩ := execRun_cases h
  · exact .inl ⟨e, rfl⟩
  · exact .inr (decodeStage_err_of_in_bounds (t := u) (setParsed_descriptor_in_bounds hp) hu)

/-- A PARSE that answers on a source with the magic has read both counts (R47). -/
theorem exists_counts_of_exec_parse (h : exec .parse s = .next t) (hlen : 16 ≤ s.srcLen.toNat) {m0 m1 m2 m3 : Byte}
    (h0 : srcRead s 0 = some m0) (h1 : srcRead s 1 = some m1) (h2 : srcRead s 2 = some m2) (h3 : srcRead s 3 = some m3)
    (hm : IsMagic m0 m1 m2 m3) : ∃ prg chr, srcRead s 4 = some prg ∧ srcRead s 5 = some chr := by
  have hread : ¬ (srcRead s 4 = none ∨ srcRead s 5 = none) := fun hu => by
    rw [exec_parse_of_unwritten (parseSource_of_count_unwritten hlen h0 h1 h2 h3 hm hu)] at h
    cases h
  obtain ⟨h4, h5⟩ := not_or.1 hread
  obtain ⟨prg, h4⟩ := Option.ne_none_iff_exists'.1 h4
  obtain ⟨chr, h5⟩ := Option.ne_none_iff_exists'.1 h5
  exact ⟨prg, chr, h4, h5⟩

/-! ## What a refusal says of the state -/

/-- A parse without an answer met a byte of the header that was never written (R14, R47). -/
theorem exists_unwritten_of_parseSource (hp : parseSource s = none) : ∃ a < s.srcLen.toNat, srcRead s a = none := by
  by_contra! hall
  rcases lt_or_ge s.srcLen.toNat 16 with hshort | hlen
  · simp [parseSource_short hshort] at hp
  · have hread : ∀ a < 16, ∃ b, srcRead s a = some b := fun a ha =>
      Option.ne_none_iff_exists'.1 (hall a (ha.trans_le hlen))
    obtain ⟨m0, h0⟩ := hread 0 (by decide)
    obtain ⟨m1, h1⟩ := hread 1 (by decide)
    obtain ⟨m2, h2⟩ := hread 2 (by decide)
    obtain ⟨m3, h3⟩ := hread 3 (by decide)
    obtain ⟨prg, h4⟩ := hread 4 (by decide)
    obtain ⟨chr, h5⟩ := hread 5 (by decide)
    cases hm : magicMatches m0 m1 m2 m3 with
    | false => simp [parseSource_magic hlen h0 h1 h2 h3 hm] at hp
    | true => simp [parseSource_region hlen h0 h1 h2 h3 h4 h5 hm] at hp

/-- A run of bytes within the buffer that cannot be read has a byte that was never written (R14). -/
theorem exists_unwritten_of_srcRun (hwf : Memory.wf s.src = true) {a n : Nat} (hle : a + n ≤ s.srcLen.toNat)
    (hr : srcRun s a n = none) : ∃ k < s.srcLen.toNat, srcRead s k = none := by
  by_contra! hall
  have hsome : (srcRun s a n).isSome = true :=
    (srcRun_isSome hwf hle).2 fun k hk => Option.isSome_iff_ne_none.2 (hall (a + k) (by omega))
  simp [hr] at hsome

theorem exec_parse_refused (h : exec .parse s = .refused r) : r = .sourceByteUnwritten ∧ parseSource s = none := by
  match hp : parseSource s with
  | none =>
    rw [exec_parse_of_unwritten hp] at h
    cases h
    exact ⟨rfl, rfl⟩
  | some (.failed e) =>
    rw [exec_parse_of_failed hp] at h
    cases h
  | some (.parsed hd a b) =>
    rw [exec_parse_of_parsed hp] at h
    cases h

/-- DECODE_ALL is refused only for an unwritten byte of a region that lies in the buffer (R14, R104). -/
theorem decodeStage_refused (hwf : Memory.wf s.src = true) (h : decodeStage s = .refused r) :
    r = .sourceByteUnwritten ∧ ∃ a < s.srcLen.toNat, srcRead s a = none := by
  unfold decodeStage at h
  split at h
  · cases h
  · rename_i hb
    have hbounds := descriptorInBounds_eq_true.1 (Bool.eq_true_of_not_eq_false hb)
    split at h
    · rename_i hr
      cases h
      exact ⟨rfl, exists_unwritten_of_srcRun hwf (region_in_bounds hbounds) hr⟩
    · cases h

theorem composeStage_refused (h : composeStage s = .refused r) : r = .tilesPerRowZero ∧ s.tpr = 0#16 := by
  unfold composeStage at h
  split at h
  · rename_i hz
    cases h
    exact ⟨rfl, hz⟩
  · cases h

/-- A sequence is refused by its first operation, or by its second on the state that the first one leaves. -/
theorem andThen_refused {first : Result} {next : State → Result} (h : andThen first next = .refused r) :
    first = .refused r ∨ ∃ u, first = .next u ∧ next u = .refused r := by
  cases first with
  | next u => exact .inr ⟨u, rfl, h⟩
  | fault f => cases f
  | refused e => exact .inl h

/-- RUN is refused for `TPR = 0`, or by the byte that stops its PARSE or DECODE_ALL stage; its COMPOSE stage sees the same `TPR`
again and never refuses (R127, R14). -/
theorem exec_run_refused (hwf : Memory.wf s.src = true) (h : exec .run s = .refused r) :
    (r = .tilesPerRowZero ∧ s.tpr = 0#16) ∨ (r = .sourceByteUnwritten ∧ ∃ a < s.srcLen.toNat, srcRead s a = none) := by
  by_cases ht : s.tpr = 0#16
  · rw [exec_run_of_tpr_zero ht] at h
    cases h
    exact .inl ⟨rfl, ht⟩
  right
  match hp : parseSource s with
  | none =>
    rw [exec, execRun_of_unwritten ht hp] at h
    cases h
    exact ⟨rfl, exists_unwritten_of_parseSource hp⟩
  | some (.failed e) =>
    rw [exec, execRun_of_failed ht hp] at h
    cases h
  | some (.parsed hd a b) =>
    rw [exec, execRun_of_parsed ht hp] at h
    rcases andThen_refused h with hdecode | ⟨u, hdecode, hcompose⟩
    · exact decodeStage_refused (s := s.setParsed hd a b) hwf hdecode
    · have htpr : u.tpr = s.tpr := (decodeStage_sameInputs hdecode).tpr
      exact absurd (htpr.symm.trans (composeStage_refused hcompose).2) ht

end Rules

/-! ## The statements -/

/-- Settles O39: an error code means that the operation raised, and each raising outcome is R156's row. -/
theorem exceptionEffects : Obligations.ExceptionEffects := by
  intro s t herr
  refine ⟨fun h => ?parse, fun h => ?run, fun h => ?decodeAll⟩
  case parse =>
    rcases exec_parse_cases h with ⟨e, -, rfl⟩ | ⟨hd, a, b, -, rfl⟩
    · rfl
    · exact absurd rfl herr
  case run =>
    rcases exec_run_raised_or_done h with ⟨e, rfl⟩ | hdone
    · rfl
    · exact absurd hdone herr
  case decodeAll =>
    rcases exec_decodeAll_cases h with ⟨-, rfl⟩ | ⟨region, rfl⟩
    · rfl
    · exact absurd rfl herr

/-- Settles O40: each clause of `parseOutcomes` names the one next state that PARSE can have answered. -/
theorem exceptionPriority : Obligations.ExceptionPriority := by
  intro s t h
  obtain ⟨hshort, hlong⟩ := parseOutcomes s
  have err_of {u : State} (hu : exec .parse s = .next u) : t.err = u.err := by
    rw [h] at hu
    cases hu
    rfl
  refine ⟨fun hlt => err_of (hshort hlt), fun hlen m0 m1 m2 m3 h0 h1 h2 h3 => ?_⟩
  obtain ⟨hwrong, hmagic⟩ := hlong m0 m1 m2 m3 hlen h0 h1 h2 h3
  refine ⟨fun hm => err_of (hwrong hm), fun hm => ?_⟩
  obtain ⟨prg, chr, h4, h5⟩ := exists_counts_of_exec_parse h hlen h0 h1 h2 h3 hm
  obtain ⟨htruncated, hdone⟩ := hmagic prg chr hm h4 h5
  rw [h4, h5]
  rcases lt_or_ge s.srcLen.toNat (regionEnd prg chr) with hlt | hle
  · have herr : t.err = .truncatedInput := err_of (htruncated hlt)
    refine ⟨.inl herr, ?_⟩
    rintro _ _ ⟨⟩ ⟨⟩
    exact iff_of_true herr hlt
  · have herr : t.err = .none := err_of (hdone hle)
    refine ⟨.inr herr, ?_⟩
    rintro _ _ ⟨⟩ ⟨⟩
    exact iff_of_false (by simp [herr]) (not_lt.2 hle)

/-- Settles O43: no fault exists, and each command that can be refused has its refusals listed. -/
theorem commandRefusals : Obligations.CommandRefusals := by
  intro s i hwf
  refine ⟨nofun, fun r h => ?_⟩
  cases i with
  | parse =>
    obtain ⟨rfl, hp⟩ := exec_parse_refused h
    exact .inr ⟨rfl, exists_unwritten_of_parseSource hp, .inl rfl⟩
  | decodeAll =>
    obtain ⟨rfl, hu⟩ := decodeStage_refused hwf h
    exact .inr ⟨rfl, hu, .inr (.inl rfl)⟩
  | compose =>
    obtain ⟨rfl, hz⟩ := composeStage_refused h
    exact .inl ⟨rfl, hz, .inl rfl⟩
  | run =>
    rcases exec_run_refused hwf h with ⟨rfl, hz⟩ | ⟨rfl, hu⟩
    · exact .inl ⟨rfl, hz, .inr rfl⟩
    · exact .inr ⟨rfl, hu, .inr (.inr rfl)⟩
  | decodeTile | mapColor => cases h

/-- Settles O8: the second check of `parseOutcomes`. -/
theorem wrongMagicIsFormatError : Obligations.WrongMagicIsFormatError := by
  intro s m0 m1 m2 m3 hlen h0 h1 h2 h3 hne
  have hm : ¬ IsMagic m0 m1 m2 m3 := by
    rintro ⟨rfl, rfl, rfl, rfl⟩
    exact hne rfl
  exact ⟨_, ((parseOutcomes s).2 m0 m1 m2 m3 hlen h0 h1 h2 h3).1 hm, rfl⟩

/-- Settles O41: none of the three is one of the commands that write `ERR`. -/
theorem neverRaisingOperations : Obligations.NeverRaisingOperations := by
  rintro s t (h | h | h) <;> exact exec_err h nofun nofun nofun

end Sys2Proof.Machine
end

-- ==== Proofs of the family 70_reset_and_hazards ====
section
/-! PROOFS. How the unit moves from one line of the host's script to the next, then the statements of
spec/70_reset_and_hazards.md. -/

namespace Sys2Proof.Machine

open Sys2Proof.Claims

section Rules

variable {s : State}

/-- With no line left a step changes nothing (R171, R180). -/
theorem step_of_script_nil (h : s.script = []) : step s = .next s := by
  simp only [step, nextAction, h]

/-- A resized source has the new length, within the capacity (R14). -/
theorem resizeSource_srcLen_toNat {n : Nat} (hn : n ≤ s.srcCap.toNat) : (s.resizeSource n).srcLen.toNat = n :=
  toNat_ofNat_of_le hn

end Rules

/-! ## The statements -/

/-- Settles O44: `commandRefusals` names what stops a command, and each reason is excluded by a hypothesis. -/
theorem everyCommandCompletes : Obligations.EveryCommandCompletes := by
  intro s i hwf hwritten htpr
  obtain ⟨hfault, hrefused⟩ := commandRefusals s i hwf
  cases h : exec i s with
  | next t => exact ⟨t, rfl⟩
  | fault f => exact absurd h (hfault f)
  | refused r =>
    rcases hrefused r h with ⟨-, hzero, -⟩ | ⟨-, ⟨a, ha, hnone⟩, -⟩
    · exact absurd hzero htpr
    · have hsome : (srcRead s a).isSome = true := Nat.zero_add a ▸ hwritten a ha
      simp [hnone] at hsome

/-- Settles O58: the resized buffer ends below the kept `CHR_END`, so the descriptor is out of bounds. -/
theorem staleDescriptorRaises : Obligations.StaleDescriptorRaises := by
  intro s t n hn h
  obtain ⟨hcap, rfl⟩ := perform_wr_srcLen_cases h
  refine exec_decodeAll_out_of_bounds fun ⟨_, hend⟩ => ?_
  rw [resizeSource_srcLen_toNat hcap] at hend
  exact not_le.2 hn hend

/-- Settles O4: `step_of_script` is the statement. -/
theorem stepPerformsTheNextLine : Obligations.StepPerformsTheNextLine :=
  fun _ _ _ => step_of_script

/-- Settles O6: `step_of_script_nil` is the statement. -/
theorem unitWaitsWithoutAction : Obligations.UnitWaitsWithoutAction :=
  fun _ => step_of_script_nil

/-- Settles O46: the reset event answers R27's state with the parameter and the host's two fields put back. -/
theorem resetEventClearsTheUnit : Obligations.ResetEventClearsTheUnit :=
  fun _ => perform_reset

end Sys2Proof.Machine
end
